-- ==== Sys2Proof/Word.lean ====
section
/-! DEFINITION. The word and the byte of the machine: every register is 32 bits (R30), every memory is bytes. -/

namespace Sys2Proof

/-- One 32-bit register word. -/
abbrev Word := BitVec 32

/-- One byte of a memory. -/
abbrev Byte := BitVec 8

end Sys2Proof
end

