-- ==== Sys2Proof/Syntax.lean ====
section
/-! DEFINITION. The commands of the 9160: one constructor per row of the table of operations and events, with the
row's operands. A register write carries its agent and the 32-bit value; an engine's own step carries the unit it
happens in; an event from outside carries what the outside supplies. -/

namespace Sys2Proof

/-- The two agents whose register accesses Strings carries (R32, R33). -/
inductive Agent where
  | host
  | puppeteer
  deriving DecidableEq, Repr

/-- The register BARs (R500). -/
inductive Bar where
  | bar0
  | bar4
  deriving DecidableEq, Repr

/-- Which SRAM a word lies in (R409 to R411): a core memory by flat core number (0 weight buffer, 1 activation buffer,
2 accumulator memory, 3 row-unit buffer), a rink's scratchpad, stripe memory by byte address, Puppeteer memory, or
another shared SRAM by the agent that reads it, numbered as GDDR6_REQUEST's: Chairlift i, Gondola group 144 + g, DMA channel 160 + c,
adaptation 176 + j, the NAND store 180, the host 181, the Puppeteer 182. -/
inductive SramPlace where
  | core (k : Fin 128) (mem : Fin 4)
  | spad (n : Fin 16)
  | stripe (addr : Nat)
  | puppeteer
  | shared (agent : Nat)
  deriving DecidableEq, Repr

/-- Why a DMA slot fails (R343), beyond what the slot itself shows. -/
inductive DmaError where
  | hostRead
  | gddrRead
  | windowClosed
  | noWindow
  | windowRange
  deriving DecidableEq, Repr

/-- The outcome of training a Tuzer port (R521, R528): the peer's node number and the lanes aligned. -/
structure TzTraining where
  peer : Fin 4
  lanes : BitVec 4
  deriving DecidableEq, Repr

/-- What reads of NAND pages met (R474, R479): codewords recovered by retry, codewords lost, and whether a program or
an erase failed. -/
structure NandOutcome where
  retries : Nat
  bits : Nat
  lost : Bool
  progFail : Bool
  deriving DecidableEq, Repr

/-- Rails are numbered in the order of R621: 0 to 3 VDD_DOM_A to D, 4 VDD_SRAM, 5 VDD_SOC, 6 VDD_AON, 7 VDDQ_GD, 8 VDDA_085,
9 VDDA_12, 10 VDD_DPHY, 11 VDDIO_18. The commands. -/
inductive Instr where
  -- Boot and reset
  | deviceReset (lowNs : Nat)
  | bootImagesChecked
  | bringUpReady
  | svnFloorRaise
  -- Register pages
  | softReset (a : Agent) (page : Nat) (v : Word)
  | registerWrite (a : Agent) (bar : Bar) (addr : Nat) (bytes : Nat) (v : BitVec 64)
  | registerRead (a : Agent) (bar : Bar) (addr : Nat) (bytes : Nat)
  | unansweredAccess (a : Agent) (bar : Bar) (addr : Nat) (write : Bool)
  | pgIrqStatClear (a : Agent) (page : Nat) (v : Word) (hwSet : Word)
  | pgIrqEnWrite (a : Agent) (page : Nat) (v : Word)
  | pgIrqForceWrite (a : Agent) (page : Nat) (v : Word)
  | pgErrCntClear (a : Agent) (page : Nat) (v : Word) (cause : BitVec 8) (off : BitVec 12)
  | pgLockWrite (a : Agent) (page : Nat) (v : Word)
  | msixUnmask (vec : Fin 128)
  -- Streams
  | streamEnable (a : Agent) (k : Fin 32) (v : Word)
  | streamDisable (a : Agent) (k : Fin 32) (v : Word)
  | longPacket (p : Fin 8) (vc : Fin 16) (dt : BitVec 6) (payload : List Byte) (hdrBad crcBad : Bool)
      (fullAt : Option Nat)
  | lineStart (p : Fin 8) (vc : Fin 16) (num : BitVec 16) (hdrBad : Bool)
  | lineEnd (p : Fin 8) (hdrBad : Bool)
  | frameStart (p : Fin 8) (vc : Fin 16) (hdrBad : Bool)
  | frameEnd (p : Fin 8) (vc : Fin 16) (hdrBad : Bool)
  | dphySync (p : Fin 8) (lane : Fin 4)
  | closeDeadline (k : Fin 32)
  | stripeRelease (j : Fin 4) (k : Fin 32) (seq : Word)
  | tableLoad (a : Agent) (v : Word)
  | tableLoadComplete (badUnit : Option Nat)
  -- Core
  | seqRun (a : Agent) (k : Fin 128) (v : Word)
  | seqStep (a : Agent) (k : Fin 128) (v : Word)
  | clrCnt (a : Agent) (k : Fin 128) (v : Word)
  | crDataWrite (a : Agent) (k : Fin 128) (v : Word)
  | resInject (a : Agent) (k : Fin 128) (v : Word)
  | nop (k : Fin 128)
  | op (k : Fin 128)
  | sem (k : Fin 128)
  | fence (k : Fin 128)
  | loop (k : Fin 128)
  | cellEnd (k : Fin 128)
  | halt (k : Fin 128)
  | t0TileIssue (k : Fin 128)
  | t0TileComplete (k : Fin 128) (flips : List (Fin 32 × Fin 48))
  | accTileDrain (k : Fin 128)
  | opComplete (k : Fin 128)
  -- Rink
  | groupLoaded (n : Fin 16)
  | rinkDrainDone (n : Fin 16)
  | inputCopy (n : Fin 16)
  | carryMove (n : Fin 16)
  | haloSend (n : Fin 16)
  | haloArrival (n : Fin 16)
  | haloCreditReturn (n : Fin 16) (entry : Fin 8) (right : Bool)
  | haloTimeout (n : Fin 16)
  -- Slalom and the emitter
  | cellRelease (j : Fin 4)
  | setSkipped (j : Fin 4)
  | cellCompletionReport (j : Fin 4) (n : Fin 16)
  | cellGate (j : Fin 4)
  | verdictEmit (j : Fin 4)
  | planSwitch (j : Fin 4)
  | forcePlan (a : Agent) (j : Fin 4) (v : Word)
  | slalomClear (a : Agent) (j : Fin 4) (v : Word)
  -- Data movement
  | chairliftFetchStart (i : Fin 144)
  | chairliftTransferDone (i : Fin 144) (failed : Bool)
  | gondolaTileCredit (g : Fin 16) (recv : Fin 144)
  | gondolaDetach (g : Fin 16) (recv : Fin 144)
  | dmaGo (a : Agent) (c : Fin 16) (v : Word)
  | dmaAbort (a : Agent) (c : Fin 16) (v : Word)
  | dmaSlotStart (c : Fin 16)
  | dmaSlotDone (c : Fin 16)
  | dmaSlotBad (c : Fin 16) (err : DmaError) (bytesDone : Nat)
  | windowOpen (a : Agent) (w : Fin 256) (v : Word)
  | windowClose (a : Agent) (w : Fin 256) (v : Word)
  | windowCloseDone (w : Fin 256)
  | windowWrite (node : Fin 4) (dma : Bool) (addr : BitVec 64) (data : List Byte)
  | windowArrival (w : Fin 256)
  | windowTargetWrite (a : Agent) (w : Fin 256) (v : Word)
  -- Adaptation
  | adaptLabel (ring : Fin 8)
  | adaptSwap (ring : Fin 8)
  | adaptPause (ring : Fin 8)
  | adaptResume (ring : Fin 8)
  | adaptRollback (ring : Fin 8)
  | adaptStep (j : Fin 4)
  | adaptStepDone (j : Fin 4)
  | weightSwap (j : Fin 4)
  -- GDDR6
  | gddr6Training (ok : BitVec 8)
  | gddr6InitDone
  | gddr6Request (agent : Nat) (write : Bool) (addr : Nat) (data : List Byte) (len : Nat) (errBits : Nat)
      (edcErrors : Nat)
  | gddr6Retrain (a : Agent) (c : Fin 8) (v : Word)
  | gddr6RetrainDone (c : Fin 8) (ok : Bool)
  | gddr6PatrolRead (c : Fin 8) (block : Word) (errBits : Nat)
  | gddr6Refresh (c : Fin 8)
  | gddr6TemperatureRead (c : Fin 8) (tempC : Int)
  | bar2Access (write : Bool) (off : Nat) (data : List Byte) (len : Nat) (uncorrectable : Bool)
  -- Resilience
  | sramPatrolRead (place : SramPlace) (errBits : Nat)
  | sramUncorrectable (place : SramPlace)
  | sharedHeaderError (corrected : Bool)
  | ctrlParity (d : Fin 4) (page : Nat) (segment : Bool)
  | domainWatchdog (d : Fin 4)
  | fenceCmd (a : Agent) (d : Fin 4) (v : Word)
  | hotResetCmd (a : Agent) (d : Fin 4) (v : Word)
  | autoReset (d : Fin 4)
  | hotResetDone (d : Fin 4)
  | hotResetFail (d : Fin 4) (code : BitVec 16)
  | eventWindowEnd (d : Fin 4)
  -- Security
  | nonce (ring : Fin 8)
  | ownerInstall (ring : Fin 8)
  | ownerRevoke (ring : Fin 8)
  | sessionKeySet (ring : Fin 8)
  | policySet (ring : Fin 8)
  | quote (ring : Fin 8)
  | identitySignature (journalOk : Bool)
  | debugUnlock (ring : Fin 8)
  | debugLock (ring : Fin 8)
  | debugUnlockExpiry
  | sessionOpen (a : Agent) (i : Fin 8) (v : Word)
  | sessionProve (a : Agent) (i : Fin 8) (v : Word)
  | sessionClose (a : Agent) (i : Fin 8) (v : Word)
  | sessionChallengeTimeout (i : Fin 8)
  | sessionBackoffEnd (i : Fin 8)
  | sqDoorbell (a : Agent) (ring : Fin 8) (v : Word)
  | frameReadFail (ring : Fin 8)
  | scrubComplete (j : Fin 4)
  -- NAND store
  | storeStatus (ring : Fin 8)
  | modelStore (ring : Fin 8)
  | modelErase (ring : Fin 8)
  | archiveRead (ring : Fin 8) (nand : NandOutcome)
  | logRead (ring : Fin 8)
  | fwWrite (ring : Fin 8)
  | storeMount (ok : Bool)
  | storeFormat (factoryBad : List Nat)
  | archiveWrite (nand : NandOutcome)
  | blockRefresh (nand : NandOutcome)
  | wearLevelCopy
  | disturbScan (block : Nat) (nand : NandOutcome)
  | retentionScan (block : Nat) (nand : NandOutcome)
  -- Host links
  | ringIndexWrite (a : Agent) (page : Nat) (off : BitVec 12) (v : Word)
  | vringTrailer (ring : Fin 8)
  | vringConfig (a : Agent) (r : Fin 32) (v : Word)
  | commandRingConfig (a : Agent) (ring : Fin 8) (v : Word)
  | faultRingConfig (a : Agent) (v : Word)
  | linkDown
  | linkUp (gen : Fin 6) (width : BitVec 8)
  | functionReset (perst : Bool)
  | poisonedWrite
  | tzPortEnable (a : Agent) (p : Fin 3) (v : Word)
  | tzRetrain (a : Agent) (p : Fin 3) (v : Word)
  | tzTrainingDone (p : Fin 3) (t : TzTraining)
  | tzTrainingTimeout (p : Fin 3)
  | flitReceive (p : Fin 3) (flit : List Byte) (crcOk : Bool)
  | flitReplay (p : Fin 3) (nak : Bool)
  | tzLinkSilent (p : Fin 3)
  | write (p : Fin 3)
  | writeRsp (p : Fin 3)
  | halo (p : Fin 3)
  | haloCredit (p : Fin 3)
  -- Time and field I/O
  | timebaseSet (a : Agent) (v : Word)
  | ppsEnable (a : Agent) (v : Word)
  | ppsEdge (falling : Bool) (withLoad : Bool)
  | ppsLost
  | encoderEdge (n : Fin 4) (levelA levelB : Bool)
  | encoderPosWrite (a : Agent) (n : Fin 4) (v : Word)
  | markerArm (a : Agent) (m : Fin 16) (v : Word)
  | markerDue (m : Fin 16)
  | markerPulseEnd (m : Fin 16)
  | gpioEdge (pin : Fin 16) (level : Bool)
  -- Clocks and power
  | pllUnlock (i : Fin 32)
  | oscTrim (cycles : Nat)
  | clkoutSwitch (a : Agent) (v : Word)
  | powerStateRequest (a : Agent) (v : Word)
  | powerStateEntered
  | wakeEvent (src : BitVec 18)
  | powerStateExitDone
  | glideEntry
  | thermalCompare
  | thermalTrip
  | railUndervoltage (rail : Fin 12)
  | pwrOkFall
  | pwrOkRise
  | pwrOkTimeout
  | functionD3hot (d3 : Bool)
  -- Wax
  | waxTempCompare
  | waxPeriod
  | waxRunCmd (a : Agent) (v : Word)
  | waxRunComplete (tj : Int) (measured : List Int)
  | waxSetApply (unit : Nat)
  | monitorConversion (i : Fin 64) (value : BitVec 16)
  -- Counters
  | counterFreeze (a : Agent) (v : Word)
  | counterThaw (a : Agent) (v : Word)
  | counterSnapshot (a : Agent) (v : Word)
  | counterCollect (a : Agent) (v : Word)
  | collectionComplete
  | counterDump (ring : Fin 8)
  | counterLoad (a : Agent) (page : Nat) (i : Fin 8) (v : Word)
  | counterWrap (page : Nat) (i : Fin 8)
  | bwMonitorConfig (a : Agent) (k : Fin 16) (v : Word)
  | bwWindowEnd (k : Fin 16)
  -- Jobs
  | memPolicy (ring : Fin 8)
  | jobLoad (ring : Fin 8)
  | jobStop (ring : Fin 8)
  deriving DecidableEq, Repr

end Sys2Proof
end

