-- ==== Sys2Proof/Decode.lean ====
section
/-! DEFINITION. The word of a command: the table gives no row any bits, so no word spells a command. -/

namespace Sys2Proof

/-- The command that a word spells by the table's bits. spec/opcode_table.json gives none of its rows bits: none. -/
def decodeTableWord (_nbits _w : Nat) : Option Instr := none

end Sys2Proof
end

