-- ==== Sys2Proof/Config.lean ====
section
/-! DEFINITION. What the spec leaves open: constants without a body. Nothing can be proved of their values. -/

namespace Sys2Proof.Config

/-- The free values: value i of the sequence that `State.freeCtr` counts (log 8). -/
opaque freeWord : Nat → BitVec 32

/-- The body of capability entry 0x0023, which no chapter defines (R51; log 15). -/
opaque codebookCapBody : List (BitVec 32)

/-- Whether a PORST_N low level between 1 µs and 10 µs, in nanoseconds, resets the device (R625). -/
opaque shortResets : Nat → Bool

/-- The Strings cycles a soft reset takes beyond none, cut to 64 (R35). -/
opaque softResetCycles : Nat → Nat

/-- The place of a row-unit result within its error bound: function code, inputs as FP32 words and element, taken
modulo the number of results that the bound admits (R188; log 20). -/
opaque rowFnPlace : Nat → List Nat → Nat → Nat

/-- γ (or a) and β (or b) of a fused pair's row function, as FP32 words, by descriptor address and element: the descriptor of a
FUSED_PAIR has no field for them (R232; log 25). -/
opaque pairGamma : Nat → Nat → BitVec 32
opaque pairBeta : Nat → Nat → BitVec 32

/-- By how many units in the last place the order of partial sums moves a sum of products of the adaptation pair, by the operands as
FP32 words: no rule gives the pair's tiling (R370; log 40). -/
opaque sumPlace : List Nat → List Nat → Int

/-- What OTP and KEYSTATE of a device hold as it leaves its makers (R432, R447, R455, R612; log 37): the vendor root hash, the
device-unique secret, the identity public key, the owner slots, the SVN floors, the policy record, the choice of in-band ECC and the
leaf record. -/
opaque vendorRoot : List Byte
opaque deviceSecret : List Byte
opaque identityPub : List Byte
opaque ownerState : Nat → Nat
opaque ownerHash : Nat → List Byte
opaque ownerKey : Nat → List Byte
opaque ownerCeiling : Nat → Nat
opaque svnFloor : Nat → Nat
opaque keystatePolicy : Nat × Nat
opaque keystateEccOff : Bool
opaque keystateLeaf : Option (Nat × Nat)

/-- The board's NAND as it leaves its makers (R472, R476, R584; log 37): the profile, the firmware copies and the wax sets. -/
opaque nandProfile : List Byte
opaque firmwareCopy : Nat → List Byte
opaque waxSets : List (List Nat)

/-- The transfer rate of an interface at a timing mode of ONFI, in MT/s (R471, R496; log 44). -/
opaque nandRate : Nat → Nat → Nat

/-- The identity signature of a quote (R453, R458): by the device-unique secret, the leaf and the quote; its 5,396 bytes are not
given by the spec's words, which leave the signing to RFC 8554 (log 38). -/
opaque identitySignature : List Byte → Nat → List Byte → List Byte

/-- Where the Puppeteer reserves the staging area, in MiB, and the sealed region and the key slot that it takes (R488; log 50). -/
opaque stagingMib : Nat
opaque stagingSeal : Nat
opaque stagingKey : Nat

/-- An entry of the power-state history in LOG, whose form no rule gives: by the state entered and the time (R476; log 39). -/
opaque powerEntry : Nat → Nat → List Byte

end Sys2Proof.Config
end

