-- ==== Sys2Proof/Machine/Bits.lean ====
section
/-! DEFINITION. Bit fields, byte order, signs, rounding and checksums (R8, R140): the arithmetic every family uses. -/

namespace Sys2Proof.Machine

/-- Bits hi down to lo of a number. -/
def bits (w hi lo : Nat) : Nat := w / 2 ^ lo % 2 ^ (hi + 1 - lo)

/-- The number with bits hi down to lo replaced by v, cut to their width. -/
def setBits (w hi lo v : Nat) : Nat :=
  w % 2 ^ lo + v % 2 ^ (hi + 1 - lo) * 2 ^ lo + w / 2 ^ (hi + 1) * 2 ^ (hi + 1)

/-- Is bit i of a number 1? -/
def bit (w i : Nat) : Bool := w / 2 ^ i % 2 == 1

/-- The number with bit i set. -/
def setBit (w i : Nat) : Nat := w ||| 2 ^ i

/-- The number with bit i cleared. -/
def clrBit (w i : Nat) : Nat := if bit w i then w - 2 ^ i else w

/-- The number whose bits of `m` are cleared. -/
def clrMask (w m : Nat) : Nat := w - (w &&& m)

/-- Truth as a bit. -/
def b01 (b : Bool) : Nat := if b then 1 else 0

/-- An n-bit pattern as a two's-complement number. -/
def toSigned (n v : Nat) : Int :=
  let u := v % 2 ^ n
  if n = 0 then 0 else if u < 2 ^ (n - 1) then (u : Int) else (u : Int) - 2 ^ n

/-- A number as an n-bit two's-complement pattern, wrapping. -/
def ofSigned (n : Nat) (v : Int) : Nat := (v % ((2 ^ n : Nat) : Int)).toNat

/-- A number saturated to n bits signed, as a pattern. -/
def satSigned (n : Nat) (v : Int) : Nat :=
  let hi : Int := 2 ^ (n - 1) - 1
  let lo : Int := -(2 ^ (n - 1))
  ofSigned n (if v > hi then hi else if v < lo then lo else v)

/-- Bytes, first byte lowest, as a number (R8). -/
def leNat : List Byte → Nat
  | [] => 0
  | b :: bs => b.toNat + 256 * leNat bs

/-- A number as n bytes, lowest first (R8). -/
def leBytes : Nat → Nat → List Byte
  | 0, _ => []
  | n + 1, v => BitVec.ofNat 8 v :: leBytes n (v / 256)

/-- The bytes of a list from offset o, n of them; 0 beyond its end. -/
def sub (bs : List Byte) (o n : Nat) : List Byte := (List.range n).map fun i => bs.getD (o + i) 0

/-- The n-byte little-endian number at offset o of a structure. -/
def le (bs : List Byte) (o n : Nat) : Nat := leNat (sub bs o n)

/-- n zero bytes. -/
def zeros (n : Nat) : List Byte := List.replicate n 0

/-- The bytes put over those of a list at offset o. -/
def patch (bs : List Byte) (o : Nat) (new : List Byte) : List Byte :=
  bs.take o ++ new ++ bs.drop (o + new.length)

/-- ceil(a / b). -/
def cdiv (a b : Nat) : Nat := (a + b - 1) / b

/-- round(a / b) to nearest, ties away from zero, for a non-negative value (R140). -/
def rdiv (a b : Nat) : Nat := (2 * a + b) / (2 * b)

/-- round(a / b) to nearest, ties away from zero (R140). -/
def rdivInt (a : Int) (b : Nat) : Int :=
  if a < 0 then -(rdiv a.natAbs b : Int) else (rdiv a.natAbs b : Int)

/-- floor(log2 v); 0 for 0. -/
def log2 (v : Nat) : Nat := Nat.log2 v

/-- A counter of n bits that saturates. -/
def satAdd (n v k : Nat) : Nat := min (v + k) (2 ^ n - 1)

/-- The list with element i replaced. -/
def setAt {α : Type} (l : List α) (i : Nat) (v : α) : List α := l.set i v

/-- One step of a reflected CRC over a byte. -/
def crcReflByte (poly : Nat) (c b : Nat) : Nat :=
  (List.range 8).foldl (fun c _ => if c % 2 = 1 then (c / 2) ^^^ poly else c / 2) (c ^^^ b)

/-- CRC-32C of the bytes, from a running value that starts at 0xFFFF_FFFF, before the final inversion (R424):
polynomial 0x1EDC_6F41, reflected. -/
def crc32cStep (c : Nat) (bs : List Byte) : Nat := bs.foldl (fun c b => crcReflByte 0x82F63B78 c b.toNat) c

/-- CRC-32C (Castagnoli, reflected, initial and final value 0xFFFF_FFFF) of the bytes (R424). -/
def crc32c (bs : List Byte) : Nat := crc32cStep 0xFFFFFFFF bs ^^^ 0xFFFFFFFF

/-- One step of the 16-bit Fibonacci LFSR with taps x^16 + x^14 + x^13 + x^11 + 1 (R427). -/
def lfsr16 (v : Nat) : Nat :=
  let fb := (v ^^^ (v / 4) ^^^ (v / 8) ^^^ (v / 32)) % 2
  v / 2 + fb * 2 ^ 15

end Sys2Proof.Machine
end

