-- ==== Sys2Proof/Machine/Crypto.lean ====
section
/-! DEFINITION. The cryptographic primitives that the spec names by their standards (R395, R433, R445, R450, R460): SHA-256, HMAC,
HKDF (RFC 5869), AES-256 in XTS and GCM, and verification of LMS and HSS signatures (RFC 8554). -/

namespace Sys2Proof.Machine

/-! ### SHA-256 -/

def shaK : List Nat :=
  [0x428a2f98, 0x71374491, 0xb5c0fbcf, 0xe9b5dba5, 0x3956c25b, 0x59f111f1, 0x923f82a4, 0xab1c5ed5,
   0xd807aa98, 0x12835b01, 0x243185be, 0x550c7dc3, 0x72be5d74, 0x80deb1fe, 0x9bdc06a7, 0xc19bf174] ++
  [0xe49b69c1, 0xefbe4786, 0x0fc19dc6, 0x240ca1cc, 0x2de92c6f, 0x4a7484aa, 0x5cb0a9dc, 0x76f988da,
   0x983e5152, 0xa831c66d, 0xb00327c8, 0xbf597fc7, 0xc6e00bf3, 0xd5a79147, 0x06ca6351, 0x14292967] ++
  [0x27b70a85, 0x2e1b2138, 0x4d2c6dfc, 0x53380d13, 0x650a7354, 0x766a0abb, 0x81c2c92e, 0x92722c85,
   0xa2bfe8a1, 0xa81a664b, 0xc24b8b70, 0xc76c51a3, 0xd192e819, 0xd6990624, 0xf40e3585, 0x106aa070] ++
  [0x19a4c116, 0x1e376c08, 0x2748774c, 0x34b0bcb5, 0x391c0cb3, 0x4ed8aa4a, 0x5b9cca4f, 0x682e6ff3,
   0x748f82ee, 0x78a5636f, 0x84c87814, 0x8cc70208, 0x90befffa, 0xa4506ceb, 0xbef9a3f7, 0xc67178f2]

def shaH0 : List Nat :=
  [0x6a09e667, 0xbb67ae85, 0x3c6ef372, 0xa54ff53a, 0x510e527f, 0x9b05688c, 0x1f83d9ab, 0x5be0cd19]

/-- A 32-bit word rotated right. -/
def rotr (x n : Nat) : Nat := x / 2 ^ n + x % 2 ^ n * 2 ^ (32 - n)

/-- n bytes of a number, highest first. -/
def beBytes (n v : Nat) : List Byte := (leBytes n v).reverse

/-- Bytes, first byte highest, as a number. -/
def beNat (bs : List Byte) : Nat := leNat bs.reverse

/-- The message schedule of a 64-byte block. -/
def shaSchedule (block : List Byte) : List Nat :=
  let w0 := (List.range 16).map fun i => beNat (sub block (4 * i) 4)
  (List.range 48).foldl (fun (w : List Nat) _ =>
    let n := w.length
    let a := w.getD (n - 15) 0
    let b := w.getD (n - 2) 0
    let s0 := rotr a 7 ^^^ rotr a 18 ^^^ (a / 2 ^ 3)
    let s1 := rotr b 17 ^^^ rotr b 19 ^^^ (b / 2 ^ 10)
    w ++ [(w.getD (n - 16) 0 + s0 + w.getD (n - 7) 0 + s1) % 2 ^ 32]) w0

/-- The compression function. -/
def shaBlock (h : List Nat) (block : List Byte) : List Nat :=
  let out := ((shaSchedule block).zip shaK).foldl (fun (v : List Nat) wk =>
    let a := v.getD 0 0
    let b := v.getD 1 0
    let c := v.getD 2 0
    let e := v.getD 4 0
    let f := v.getD 5 0
    let g := v.getD 6 0
    let s1 := rotr e 6 ^^^ rotr e 11 ^^^ rotr e 25
    let ch := (e &&& f) ^^^ ((2 ^ 32 - 1 - e) &&& g)
    let t1 := v.getD 7 0 + s1 + ch + wk.2 + wk.1
    let s0 := rotr a 2 ^^^ rotr a 13 ^^^ rotr a 22
    let maj := (a &&& b) ^^^ (a &&& c) ^^^ (b &&& c)
    [(t1 + s0 + maj) % 2 ^ 32, a, b, c, (v.getD 3 0 + t1) % 2 ^ 32, e, f, g]) h
  (h.zip out).map fun p => (p.1 + p.2) % 2 ^ 32

/-- SHA-256. -/
def sha256 (m : List Byte) : List Byte :=
  let n := m.length
  let z := (119 - n % 64) % 64
  let p := m ++ [0x80] ++ zeros z ++ beBytes 8 (8 * n)
  ((List.range (p.length / 64)).foldl (fun h i => shaBlock h (sub p (64 * i) 64)) shaH0).flatMap (beBytes 4)

/-- HMAC-SHA-256. -/
def hmac (key m : List Byte) : List Byte :=
  let k := if 64 < key.length then sha256 key else key
  let k := k ++ zeros (64 - k.length)
  sha256 (k.map (· ^^^ 0x5c) ++ sha256 (k.map (· ^^^ 0x36) ++ m))

/-- HKDF-SHA-256 (RFC 5869): extract and expand. -/
def hkdf (ikm salt info : List Byte) (len : Nat) : List Byte :=
  let prk := hmac salt ikm
  let ts := (List.range (cdiv len 32)).foldl (fun (acc : List Byte × List Byte) i =>
    let t := hmac prk (acc.2 ++ info ++ [BitVec.ofNat 8 (i + 1)])
    (acc.1 ++ t, t)) ([], [])
  ts.1.take len

/-- ASCII text as bytes. -/
def ascii (t : String) : List Byte := t.toList.map fun c => BitVec.ofNat 8 c.toNat

/-! ### AES-256 -/

/-- Multiplication in GF(2^8) modulo x^8 + x^4 + x^3 + x + 1. -/
def gfMul (a b : Nat) : Nat :=
  ((List.range 8).foldl (fun (st : Nat × Nat) i =>
    let r := if b / 2 ^ i % 2 = 1 then st.1 ^^^ st.2 else st.1
    let x := st.2 * 2
    (r, if 256 ≤ x then x ^^^ 0x11B else x)) (0, a)).1

/-- The inverse, 0 for 0: the 254th power. -/
def gfInv (a : Nat) : Nat :=
  let a2 := gfMul a a
  let a3 := gfMul a2 a
  let a6 := gfMul a3 a3
  let a7 := gfMul a6 a
  let a14 := gfMul a7 a7
  let a15 := gfMul a14 a
  let a30 := gfMul a15 a15
  let a31 := gfMul a30 a
  let a62 := gfMul a31 a31
  let a63 := gfMul a62 a
  let a126 := gfMul a63 a63
  let a127 := gfMul a126 a
  gfMul a127 a127

/-- A byte rotated left. -/
def rotl8 (b n : Nat) : Nat := b * 2 ^ n % 256 + b / 2 ^ (8 - n)

/-- SubBytes and its inverse. -/
def sbox (x : Nat) : Nat :=
  let b := gfInv x
  b ^^^ rotl8 b 1 ^^^ rotl8 b 2 ^^^ rotl8 b 3 ^^^ rotl8 b 4 ^^^ 0x63
def sboxInv (y : Nat) : Nat := gfInv (rotl8 y 1 ^^^ rotl8 y 3 ^^^ rotl8 y 6 ^^^ 5)

/-- Elementwise exclusive or. -/
def xorL (a b : List Nat) : List Nat := (a.zip b).map fun p => p.1 ^^^ p.2

/-- The key schedule of AES-256: 60 words of four bytes. -/
def aesExpand (key : List Nat) : List (List Nat) :=
  (List.range 52).foldl (fun (w : List (List Nat)) j =>
    let i := j + 8
    let t := w.getD (i - 1) []
    let t := if i % 8 = 0 then
        let u := (t.drop 1 ++ t.take 1).map sbox
        xorL u [2 ^ (i / 8 - 1), 0, 0, 0]
      else if i % 8 = 4 then t.map sbox else t
    w ++ [xorL (w.getD (i - 8) []) t]) ((List.range 8).map fun i => (key.drop (4 * i)).take 4)

/-- Round key r as 16 bytes. -/
def roundKey (w : List (List Nat)) (r : Nat) : List Nat := ((w.drop (4 * r)).take 4).flatten

/-- ShiftRows of a state of 16 bytes held column by column: row r moves left by r, or right in the inverse. -/
def shiftRows (s : List Nat) (inv : Bool) : List Nat :=
  (List.range 16).map fun i =>
    let r := i % 4
    let c := i / 4
    s.getD (4 * ((if inv then c + 4 - r else c + r) % 4) + r) 0

/-- MixColumns with the matrix whose first row is given. -/
def mixColumns (m : List Nat) (s : List Nat) : List Nat :=
  (List.range 16).map fun i =>
    let r := i % 4
    let c := i / 4
    (List.range 4).foldl (fun acc j => acc ^^^ gfMul (m.getD ((j + 4 - r) % 4) 0) (s.getD (4 * c + j) 0)) 0

/-- One block encrypted. -/
def aesEnc (key block : List Nat) : List Nat :=
  let w := aesExpand key
  let s := (List.range 13).foldl (fun s r =>
    xorL (mixColumns [2, 3, 1, 1] (shiftRows (s.map sbox) false)) (roundKey w (r + 1))) (xorL block (roundKey w 0))
  xorL (shiftRows (s.map sbox) false) (roundKey w 14)

/-- One block decrypted. -/
def aesDec (key block : List Nat) : List Nat :=
  let w := aesExpand key
  let s := (List.range 13).foldl (fun s r =>
    mixColumns [14, 11, 13, 9] (xorL ((shiftRows s true).map sboxInv) (roundKey w (13 - r)))) (xorL block (roundKey w 14))
  xorL ((shiftRows s true).map sboxInv) (roundKey w 0)

def natsOf (bs : List Byte) : List Nat := bs.map (·.toNat)
def bytesOf (ns : List Nat) : List Byte := ns.map fun n => BitVec.ofNat 8 n

/-- The XTS tweak of block j of a data unit, as 16 bytes (R395). -/
def xtsTweak (key2 : List Nat) (unit j : Nat) : List Nat :=
  let t0 := leNat (bytesOf (aesEnc key2 (natsOf (leBytes 16 unit))))
  natsOf (leBytes 16 ((List.range j).foldl (fun t _ => let x := 2 * t; if 2 ^ 128 ≤ x then (x - 2 ^ 128) ^^^ 0x87 else x) t0))

/-- Block j of a data unit under a 64-byte key pair, encrypted or decrypted (R395). -/
def xtsBlock (dec : Bool) (keys : List Byte) (unit j : Nat) (block : List Byte) : List Byte :=
  let k := natsOf keys
  let t := xtsTweak (k.drop 32) unit j
  let x := xorL (natsOf block) t
  bytesOf (xorL (if dec then aesDec (k.take 32) x else aesEnc (k.take 32) x) t)

/-- Multiplication in GF(2^128) as GCM orders bits, on blocks read highest byte first. -/
def ghMul (x y : Nat) : Nat :=
  ((List.range 128).foldl (fun (st : Nat × Nat) i =>
    let z := if x / 2 ^ (127 - i) % 2 = 1 then st.1 ^^^ st.2 else st.1
    (z, if st.2 % 2 = 1 then (st.2 / 2) ^^^ (0xE1 * 2 ^ 120) else st.2 / 2)) (0, y)).1

/-- Bytes padded with zeros to whole blocks. -/
def padBlocks (bs : List Byte) : List Byte := bs ++ zeros ((16 - bs.length % 16) % 16)

/-- GHASH of bytes in whole blocks. -/
def ghash (h : Nat) (bs : List Byte) : Nat :=
  (List.range (bs.length / 16)).foldl (fun y i => ghMul (y ^^^ beNat (sub bs (16 * i) 16)) h) 0

/-- The key stream of GCM's counter mode, from counter 2 on, for n bytes under a 96-bit nonce. -/
def gcmStream (key nonce : List Byte) (n : Nat) : List Byte :=
  ((List.range (cdiv n 16)).flatMap fun i => bytesOf (aesEnc (natsOf key) (natsOf (nonce ++ beBytes 4 (i + 2))))).take n

def xorB (a b : List Byte) : List Byte := (a.zip b).map fun p => p.1 ^^^ p.2

/-- GCM's tag of a ciphertext and AAD. -/
def gcmTag (key nonce aad ct : List Byte) : List Byte :=
  let h := beNat (bytesOf (aesEnc (natsOf key) (List.replicate 16 0)))
  let g := ghash h (padBlocks aad ++ padBlocks ct ++ beBytes 8 (8 * aad.length) ++ beBytes 8 (8 * ct.length))
  xorB (beBytes 16 g) (bytesOf (aesEnc (natsOf key) (natsOf (nonce ++ beBytes 4 1))))

/-- AES-256-GCM: encryption gives ciphertext and tag; decryption gives nothing when the tag does not match. -/
def gcmEnc (key nonce aad pt : List Byte) : List Byte × List Byte :=
  let ct := xorB pt (gcmStream key nonce pt.length)
  (ct, gcmTag key nonce aad ct)
def gcmDec (key nonce aad ct tag : List Byte) : Option (List Byte) :=
  if gcmTag key nonce aad ct = tag then some (xorB ct (gcmStream key nonce ct.length)) else none

/-! ### HSS (RFC 8554) -/

/-- LM-OTS with SHA-256, 32 bytes: w, p and ls of a type code. -/
def otsParams (t : Nat) : Option (Nat × Nat × Nat) :=
  match t with
  | 1 => some (1, 265, 7) | 2 => some (2, 133, 6) | 3 => some (4, 67, 4) | 4 => some (8, 34, 0) | _ => none

/-- The height of an LMS type code. -/
def lmsHeight (t : Nat) : Option Nat := if 5 ≤ t ∧ t ≤ 9 then some (5 * (t - 4)) else none

/-- Digit i of width w of a string. -/
def otsCoef (bs : List Byte) (i w : Nat) : Nat := beNat (sub bs (i * w / 8) 1) / 2 ^ (8 - w * (i % (8 / w)) - w) % 2 ^ w

/-- The candidate LM-OTS public key of a signature. -/
def otsCandidate (ident : List Byte) (q : Nat) (w p ls : Nat) (c y msg : List Byte) : List Byte :=
  let qh := sha256 (ident ++ beBytes 4 q ++ beBytes 2 0x8181 ++ c ++ msg)
  let sum := (List.range (256 / w)).foldl (fun n i => n + (2 ^ w - 1 - otsCoef qh i w)) 0
  let v := qh ++ beBytes 2 (sum * 2 ^ ls)
  let z := (List.range p).flatMap fun i =>
    let a := otsCoef v i w
    (List.range (2 ^ w - 1 - a)).foldl (fun t j => sha256 (ident ++ beBytes 4 q ++ beBytes 2 i ++ beBytes 1 (a + j) ++ t)) (sub y (32 * i) 32)
  sha256 (ident ++ beBytes 4 q ++ beBytes 2 0x8080 ++ z)

/-- The bytes of an LMS signature of these types. -/
def lmsSigLen (p h : Nat) : Nat := 12 + 32 + 32 * p + 32 * h

/-- The candidate root that an LMS signature gives for a message, by the key's identifier and the parameters of its types. -/
def lmsCandidate (ident : List Byte) (w p ls h : Nat) (sig msg : List Byte) : List Byte :=
  let q := beNat (sub sig 0 4)
  let k := otsCandidate ident q w p ls (sub sig 8 32) (sub sig 40 (32 * p)) msg
  let path := 44 + 32 * p
  let leaf := sha256 (ident ++ beBytes 4 (2 ^ h + q) ++ beBytes 2 0x8282 ++ k)
  (List.range h).foldl (fun t i =>
    let node := (2 ^ h + q) / 2 ^ i
    let sib := sub sig (path + 32 * i) 32
    sha256 (ident ++ beBytes 4 (node / 2) ++ beBytes 2 0x8383 ++ if node % 2 = 1 then sib ++ t else t ++ sib)) leaf

/-- An LMS signature verifies under a 56-byte public key. -/
def lmsVerify (pub sig msg : List Byte) : Bool :=
  let lt := beNat (sub pub 0 4)
  let ot := beNat (sub pub 4 4)
  match otsParams ot, lmsHeight lt with
  | some (w, p, ls), some h =>
    sig.length == lmsSigLen p h && beNat (sub sig 4 4) == ot && beNat (sub sig (40 + 32 * p) 4) == lt &&
      decide (beNat (sub sig 0 4) < 2 ^ h) && lmsCandidate (sub pub 8 16) w p ls h sig msg == sub pub 24 32
  | _, _ => false

/-- The length of the LMS signature made under a public key. -/
def lmsLenOf (pub : List Byte) : Nat :=
  match otsParams (beNat (sub pub 4 4)), lmsHeight (beNat (sub pub 0 4)) with
  | some (_, p, _), some h => lmsSigLen p h
  | _, _ => 0

/-- The levels of an HSS signature below the top, `n` of them signed public keys. -/
def hssChain : Nat → List Byte → List Byte → List Byte → Bool
  | 0, pub, sig, msg => lmsVerify pub sig msg
  | n + 1, pub, sig, msg =>
    let l := lmsLenOf pub
    let next := sub sig l 56
    decide (l + 56 ≤ sig.length) && lmsVerify pub (sig.take l) next && hssChain n next (sig.drop (l + 56)) msg

/-- An HSS signature verifies under a 60-byte public key with at most two levels (R439, R445). -/
def hssVerify (pub sig msg : List Byte) : Bool :=
  let l := beNat (sub pub 0 4)
  (l == 1 || l == 2) && beNat (sub sig 0 4) == l - 1 && hssChain (l - 1) (pub.drop 4) (sig.drop 4) msg

end Sys2Proof.Machine
end

