-- ==== Sys2Proof/Machine/RegMap.lean ====
section
/-! DEFINITION. The register map: for each kind of page, every register with its offset, its fields, their
access codes (R11), reset values and legal encodings (R12), and a name for every field. Written from the
register tables of spec/; each table names the rule it follows. -/

namespace Sys2Proof.Machine

/-- The access codes of R11. -/
inductive Acc where
  | rw | ro | w1c | w1s | wo | rsv
  deriving DecidableEq, Repr

/-- The encodings an RW field accepts; every other one is reserved (R12). -/
inductive Legal where
  | any
  | range (lo hi : Nat)
  | evenRange (lo hi : Nat)
  | oneOf (vs : List Nat)
  deriving DecidableEq, Repr

/-- Does the field accept the encoding (R12)? -/
def Legal.ok : Legal → Nat → Bool
  | .any, _ => true
  | .range lo hi, v => decide (lo ≤ v) && decide (v ≤ hi)
  | .evenRange lo hi, v => decide (lo ≤ v) && decide (v ≤ hi) && decide (v % 2 = 0)
  | .oneOf vs, v => vs.contains v

/-- One field of a register, bits hi down to lo. -/
structure FieldRow where
  hi : Nat
  lo : Nat
  acc : Acc
  rst : Nat
  legal : Legal
  deriving DecidableEq, Repr

/-- One register of a page, or `count` of them `stride` bytes apart. -/
structure RegRow where
  off : Nat
  stride : Nat
  count : Nat
  fields : List FieldRow
  deriving DecidableEq, Repr

/-- The place of a named field: offset of its register in the page, distance between the registers where there are
several, and its bits. -/
structure Fld where
  off : Nat
  stride : Nat
  hi : Nat
  lo : Nat
  deriving DecidableEq, Repr

/-- Registers of the `hdr` page header, on every page (R33). -/
def hdrRegs : List RegRow := [
  ⟨0x000, 0x0, 1, [⟨31, 16, .ro, 0, .any⟩, ⟨15, 8, .ro, 0, .any⟩, ⟨7, 0, .ro, 0, .any⟩]⟩,
  ⟨0x004, 0x0, 1, [⟨31, 24, .ro, 1, .any⟩, ⟨23, 16, .ro, 0, .any⟩, ⟨15, 8, .ro, 177, .any⟩, ⟨7, 0, .rsv, 0, .any⟩]⟩,
  ⟨0x008, 0x0, 1, [⟨31, 12, .rsv, 0, .any⟩, ⟨11, 0, .ro, 0, .any⟩]⟩,
  ⟨0x00c, 0x0, 1, [⟨31, 5, .rsv, 0, .any⟩, ⟨4, 4, .rw, 0, .any⟩, ⟨3, 3, .rw, 0, .any⟩, ⟨2, 2, .rw, 1, .any⟩, ⟨1, 1, .w1s, 0, .any⟩, ⟨0, 0, .rw, 0, .any⟩]⟩,
  ⟨0x010, 0x0, 1, [⟨31, 16, .ro, 0, .any⟩, ⟨15, 3, .rsv, 0, .any⟩, ⟨2, 2, .ro, 0, .any⟩, ⟨1, 1, .ro, 0, .any⟩, ⟨0, 0, .ro, 0, .any⟩]⟩,
  ⟨0x014, 0x0, 1, [⟨31, 31, .w1c, 0, .any⟩, ⟨30, 30, .w1c, 0, .any⟩, ⟨29, 0, .w1c, 0, .any⟩]⟩,
  ⟨0x018, 0x0, 1, [⟨31, 0, .rw, 0, .any⟩]⟩,
  ⟨0x01c, 0x0, 1, [⟨31, 0, .w1s, 0, .any⟩]⟩,
  ⟨0x020, 0x0, 1, [⟨31, 31, .w1s, 0, .any⟩, ⟨30, 24, .rsv, 0, .any⟩, ⟨23, 16, .ro, 0, .any⟩, ⟨15, 0, .ro, 0, .any⟩]⟩,
  ⟨0x024, 0x0, 1, [⟨31, 31, .ro, 0, .any⟩, ⟨30, 30, .ro, 0, .any⟩, ⟨29, 26, .rsv, 0, .any⟩, ⟨25, 0, .ro, 0, .any⟩]⟩] ++
[
  ⟨0x028, 0x0, 1, [⟨31, 10, .rsv, 0, .any⟩, ⟨9, 8, .ro, 0, .any⟩, ⟨7, 1, .rsv, 0, .any⟩, ⟨0, 0, .wo, 0, .any⟩]⟩,
  ⟨0x02c, 0x0, 1, [⟨31, 0, .rw, 0, .any⟩]⟩]

/-- Registers of the `dv` page (R53, R56, R607). -/
def dvRegs : List RegRow := [
  ⟨0x100, 0x0, 1, [⟨31, 24, .ro, 8, .any⟩, ⟨23, 16, .ro, 4, .any⟩, ⟨15, 8, .ro, 4, .any⟩, ⟨7, 0, .ro, 32, .any⟩]⟩,
  ⟨0x104, 0x0, 1, [⟨31, 16, .ro, 256, .any⟩, ⟨15, 0, .ro, 512, .any⟩]⟩,
  ⟨0x108, 0x0, 1, [⟨31, 16, .ro, 256, .any⟩, ⟨15, 0, .ro, 32, .any⟩]⟩,
  ⟨0x10c, 0x0, 1, [⟨31, 16, .ro, 8192, .any⟩, ⟨15, 0, .ro, 2048, .any⟩]⟩,
  ⟨0x110, 0x0, 1, [⟨31, 16, .ro, 2048, .any⟩, ⟨15, 8, .ro, 8, .any⟩, ⟨7, 0, .ro, 64, .any⟩]⟩,
  ⟨0x114, 0x0, 1, [⟨31, 24, .ro, 8, .any⟩, ⟨23, 16, .ro, 4, .any⟩, ⟨15, 8, .ro, 4, .any⟩, ⟨7, 0, .ro, 32, .any⟩]⟩,
  ⟨0x118, 0x0, 1, [⟨31, 16, .ro, 16384, .any⟩, ⟨15, 0, .ro, 65535, .any⟩]⟩,
  ⟨0x11c, 0x0, 1, [⟨31, 24, .ro, 3, .any⟩, ⟨23, 16, .ro, 2, .any⟩, ⟨15, 8, .ro, 4, .any⟩, ⟨7, 0, .ro, 16, .any⟩]⟩,
  ⟨0x120, 0x0, 1, [⟨31, 24, .ro, 8, .any⟩, ⟨23, 16, .ro, 4, .any⟩, ⟨15, 8, .ro, 16, .any⟩, ⟨7, 0, .ro, 16, .any⟩]⟩,
  ⟨0x124, 0x0, 1, [⟨31, 16, .ro, 128, .any⟩, ⟨15, 0, .ro, 500, .any⟩]⟩] ++
[
  ⟨0x040, 0x0, 1, [⟨31, 31, .w1s, 0, .any⟩, ⟨30, 16, .rsv, 0, .any⟩, ⟨15, 0, .ro, 0, .any⟩]⟩,
  ⟨0x044, 0x0, 1, [⟨31, 31, .ro, 0, .any⟩, ⟨30, 30, .ro, 0, .any⟩, ⟨29, 28, .ro, 0, .any⟩, ⟨27, 26, .rsv, 0, .any⟩, ⟨25, 0, .ro, 0, .any⟩]⟩,
  ⟨0x048, 0x0, 1, [⟨31, 0, .ro, 0, .any⟩]⟩,
  ⟨0x04c, 0x0, 1, [⟨31, 2, .rsv, 0, .any⟩, ⟨1, 0, .ro, 0, .any⟩]⟩,
  ⟨0x050, 0x0, 1, [⟨31, 16, .ro, 0, .any⟩, ⟨15, 0, .rsv, 0, .any⟩]⟩,
  ⟨0x054, 0x0, 1, [⟨31, 0, .ro, 0, .any⟩]⟩,
  ⟨0x058, 0x0, 1, [⟨31, 0, .ro, 0, .any⟩]⟩,
  ⟨0x05c, 0x0, 1, [⟨31, 0, .ro, 0, .any⟩]⟩,
  ⟨0x180, 0x0, 1, [⟨31, 28, .ro, 0, .any⟩, ⟨27, 16, .rsv, 0, .any⟩, ⟨15, 0, .ro, 0, .any⟩]⟩,
  ⟨0x184, 0x0, 1, [⟨31, 0, .ro, 0, .any⟩]⟩]

/-- Registers of the `ppMb` page (R468). -/
def ppMbRegs : List RegRow := [
  ⟨0x040, 0x0, 1, [⟨31, 8, .rsv, 0, .any⟩, ⟨7, 4, .ro, 0, .any⟩, ⟨3, 0, .ro, 0, .any⟩]⟩,
  ⟨0x044, 0x0, 1, [⟨31, 16, .ro, 0, .any⟩, ⟨15, 8, .ro, 0, .any⟩, ⟨7, 0, .ro, 0, .any⟩]⟩,
  ⟨0x048, 0x0, 1, [⟨31, 16, .rsv, 0, .any⟩, ⟨15, 8, .ro, 255, .any⟩, ⟨7, 0, .ro, 255, .any⟩]⟩]

/-- Registers of the `ppSess` page (R467). -/
def ppSessRegs : List RegRow := [
  ⟨0x040, 0x0, 1, [⟨31, 31, .w1s, 0, .any⟩, ⟨30, 30, .w1s, 0, .any⟩, ⟨29, 29, .w1s, 0, .any⟩, ⟨28, 2, .rsv, 0, .any⟩, ⟨1, 0, .rw, 0, (.range 0 2)⟩]⟩,
  ⟨0x044, 0x0, 1, [⟨31, 6, .rsv, 0, .any⟩, ⟨5, 0, .rw, 0, .any⟩]⟩,
  ⟨0x048, 0x0, 1, [⟨31, 29, .ro, 0, .any⟩, ⟨28, 24, .ro, 0, .any⟩, ⟨23, 6, .rsv, 0, .any⟩, ⟨5, 0, .ro, 0, .any⟩]⟩,
  ⟨0x04c, 0x0, 1, [⟨31, 11, .rsv, 0, .any⟩, ⟨10, 0, .ro, 0, .any⟩]⟩,
  ⟨0x060, 0x4, 8, [⟨31, 0, .ro, 0, .any⟩]⟩,
  ⟨0x080, 0x4, 8, [⟨31, 0, .rw, 0, .any⟩]⟩,
  ⟨0x0a0, 0x0, 1, [⟨31, 0, .ro, 0, .any⟩]⟩,
  ⟨0x0a4, 0x0, 1, [⟨31, 0, .ro, 0, .any⟩]⟩]

/-- Registers of the `sc` page (R466). -/
def scRegs : List RegRow := [
  ⟨0x040, 0x0, 1, [⟨31, 28, .ro, 0, .any⟩, ⟨27, 27, .ro, 0, .any⟩, ⟨26, 26, .ro, 0, .any⟩, ⟨25, 24, .rsv, 0, .any⟩, ⟨23, 16, .ro, 0, .any⟩, ⟨15, 12, .ro, 0, .any⟩, ⟨11, 8, .ro, 0, .any⟩, ⟨7, 0, .ro, 0, .any⟩]⟩,
  ⟨0x044, 0x4, 4, [⟨31, 0, .ro, 0, .any⟩]⟩,
  ⟨0x054, 0x0, 1, [⟨31, 8, .rsv, 0, .any⟩, ⟨7, 0, .ro, 0, .any⟩]⟩,
  ⟨0x058, 0x0, 1, [⟨31, 6, .rsv, 0, .any⟩, ⟨5, 0, .ro, 0, .any⟩]⟩,
  ⟨0x05c, 0x0, 1, [⟨31, 0, .ro, 0, .any⟩]⟩,
  ⟨0x060, 0x0, 1, [⟨31, 30, .rsv, 0, .any⟩, ⟨29, 0, .ro, 0, .any⟩]⟩,
  ⟨0x064, 0x0, 1, [⟨31, 30, .rsv, 0, .any⟩, ⟨29, 0, .ro, 0, .any⟩]⟩,
  ⟨0x068, 0x0, 1, [⟨31, 17, .rsv, 0, .any⟩, ⟨16, 16, .ro, 0, .any⟩, ⟨15, 0, .ro, 0, .any⟩]⟩,
  ⟨0x06c, 0x0, 1, [⟨31, 31, .ro, 0, .any⟩, ⟨30, 28, .ro, 0, .any⟩, ⟨27, 26, .ro, 0, .any⟩, ⟨25, 16, .rsv, 0, .any⟩, ⟨15, 0, .ro, 0, .any⟩]⟩,
  ⟨0x070, 0x0, 1, [⟨31, 0, .ro, 0, .any⟩]⟩] ++
[
  ⟨0x074, 0x0, 1, [⟨31, 0, .ro, 0, .any⟩]⟩,
  ⟨0x080, 0x4, 4, [⟨31, 0, .ro, 0, .any⟩]⟩,
  ⟨0x090, 0x4, 8, [⟨31, 0, .ro, 0, .any⟩]⟩,
  ⟨0x0b0, 0x4, 24, [⟨31, 0, .ro, 0, .any⟩]⟩,
  ⟨0x110, 0x4, 15, [⟨31, 0, .ro, 0, .any⟩]⟩]

/-- Registers of the `feCommon` page (R123). -/
def feCommonRegs : List RegRow := [
  ⟨0x040, 0x0, 1, [⟨31, 0, .rw, 0, .any⟩]⟩,
  ⟨0x044, 0x0, 1, [⟨31, 0, .rw, 0, .any⟩]⟩,
  ⟨0x048, 0x0, 1, [⟨31, 31, .w1s, 0, .any⟩, ⟨30, 30, .rw, 0, .any⟩, ⟨29, 28, .rsv, 0, .any⟩, ⟨27, 14, .rw, 0, .any⟩, ⟨13, 0, .rw, 0, .any⟩]⟩,
  ⟨0x04c, 0x0, 1, [⟨31, 2, .rsv, 0, .any⟩, ⟨1, 1, .ro, 0, .any⟩, ⟨0, 0, .ro, 0, .any⟩]⟩,
  ⟨0x050, 0x0, 1, [⟨31, 0, .ro, 0, .any⟩]⟩]

/-- Registers of the `fePort` page (R82). -/
def fePortRegs : List RegRow := [
  ⟨0x040, 0x0, 1, [⟨31, 24, .rsv, 0, .any⟩, ⟨23, 16, .rw, 228, .any⟩, ⟨15, 12, .rw, 0, .any⟩, ⟨11, 4, .rsv, 0, .any⟩, ⟨3, 2, .rw, 2, (.range 0 2)⟩, ⟨1, 1, .rw, 1, .any⟩, ⟨0, 0, .rw, 0, .any⟩]⟩,
  ⟨0x044, 0x0, 1, [⟨31, 13, .rsv, 0, .any⟩, ⟨12, 0, .rw, 4500, (.range 80 4500)⟩]⟩,
  ⟨0x048, 0x0, 1, [⟨31, 16, .ro, 0, .any⟩, ⟨15, 8, .ro, 0, .any⟩, ⟨7, 4, .ro, 0, .any⟩, ⟨3, 0, .rsv, 0, .any⟩]⟩,
  ⟨0x04c, 0x0, 1, [⟨31, 16, .ro, 0, .any⟩, ⟨15, 0, .ro, 0, .any⟩]⟩]

/-- Registers of the `feStrm` page (R121, R122, R83). -/
def feStrmRegs : List RegRow := [
  ⟨0x040, 0x0, 1, [⟨31, 22, .rsv, 0, .any⟩, ⟨21, 20, .rw, 0, (.range 0 1)⟩, ⟨19, 19, .rw, 0, .any⟩, ⟨18, 18, .rw, 0, .any⟩, ⟨17, 16, .rw, 0, .any⟩, ⟨15, 14, .rw, 0, (.range 0 2)⟩, ⟨13, 8, .rw, 44, (.range 42 46)⟩, ⟨7, 4, .rw, 0, .any⟩, ⟨3, 3, .rsv, 0, .any⟩, ⟨2, 0, .rw, 0, .any⟩]⟩,
  ⟨0x044, 0x0, 1, [⟨31, 21, .rsv, 0, .any⟩, ⟨20, 16, .rw, 4, (.range 1 16)⟩, ⟨15, 15, .rsv, 0, .any⟩, ⟨14, 0, .rw, 8192, (.evenRange 64 16384)⟩]⟩,
  ⟨0x048, 0x0, 1, [⟨31, 16, .rsv, 0, .any⟩, ⟨15, 0, .rw, 0, .any⟩]⟩,
  ⟨0x04c, 0x0, 1, [⟨31, 16, .rsv, 0, .any⟩, ⟨15, 0, .rw, 0, .any⟩]⟩,
  ⟨0x050, 0x0, 1, [⟨31, 4, .rsv, 0, .any⟩, ⟨3, 2, .rw, 0, (.range 0 2)⟩, ⟨1, 0, .rw, 1, (.range 0 2)⟩]⟩,
  ⟨0x054, 0x0, 1, [⟨31, 30, .rsv, 0, .any⟩, ⟨29, 28, .rw, 0, (.range 0 2)⟩, ⟨27, 14, .rsv, 0, .any⟩, ⟨13, 0, .rw, 0, .any⟩]⟩,
  ⟨0x058, 0x0, 1, [⟨31, 14, .rsv, 0, .any⟩, ⟨13, 0, .ro, 0, .any⟩]⟩,
  ⟨0x05c, 0x0, 1, [⟨31, 24, .rw, 8, .any⟩, ⟨23, 0, .rw, 0, .any⟩]⟩,
  ⟨0x060, 0x0, 1, [⟨31, 16, .rsv, 0, .any⟩, ⟨15, 0, .rw, 0, .any⟩]⟩,
  ⟨0x064, 0x0, 1, [⟨31, 28, .ro, 0, .any⟩, ⟨27, 24, .ro, 0, .any⟩, ⟨23, 20, .ro, 0, .any⟩, ⟨19, 16, .rsv, 0, .any⟩, ⟨15, 0, .ro, 0, .any⟩]⟩] ++
[
  ⟨0x068, 0x0, 1, [⟨31, 0, .ro, 0, .any⟩]⟩,
  ⟨0x080, 0x0, 1, [⟨31, 31, .rw, 0, .any⟩, ⟨30, 10, .rsv, 0, .any⟩, ⟨9, 8, .rw, 0, (.range 0 2)⟩, ⟨7, 7, .rw, 0, .any⟩, ⟨6, 6, .rw, 0, .any⟩, ⟨5, 5, .rw, 0, .any⟩, ⟨4, 4, .rw, 0, .any⟩, ⟨3, 3, .rw, 0, .any⟩, ⟨2, 2, .rw, 0, .any⟩, ⟨1, 1, .rw, 0, .any⟩, ⟨0, 0, .rw, 0, .any⟩]⟩,
  ⟨0x084, 0x0, 1, [⟨31, 16, .rsv, 0, .any⟩, ⟨15, 0, .rw, 0, .any⟩]⟩,
  ⟨0x088, 0x0, 1, [⟨31, 16, .rw, 0, .any⟩, ⟨15, 0, .rw, 0, .any⟩]⟩,
  ⟨0x08c, 0x0, 1, [⟨31, 16, .rw, 0, .any⟩, ⟨15, 0, .rw, 0, .any⟩]⟩,
  ⟨0x090, 0x0, 1, [⟨31, 20, .rw, 4095, .any⟩, ⟨19, 8, .rw, 4095, .any⟩, ⟨7, 1, .rsv, 0, .any⟩, ⟨0, 0, .rw, 0, .any⟩]⟩,
  ⟨0x094, 0x0, 1, [⟨31, 16, .rw, 4096, .any⟩, ⟨15, 0, .rw, 4096, .any⟩]⟩,
  ⟨0x098, 0x0, 1, [⟨31, 16, .rw, 4096, .any⟩, ⟨15, 0, .rw, 4096, .any⟩]⟩,
  ⟨0x0a0, 0x4, 8, [⟨31, 16, .rw, 0, .any⟩, ⟨15, 0, .rw, 0, .any⟩]⟩,
  ⟨0x0c0, 0x0, 1, [⟨31, 16, .rw, 0, .any⟩, ⟨15, 0, .rw, 0, .any⟩]⟩] ++
[
  ⟨0x0c4, 0x0, 1, [⟨31, 16, .rw, 0, .any⟩, ⟨15, 0, .rw, 0, .any⟩]⟩,
  ⟨0x0d0, 0x0, 1, [⟨31, 29, .rsv, 0, .any⟩, ⟨28, 28, .rw, 0, .any⟩, ⟨27, 14, .rw, 0, .any⟩, ⟨13, 0, .rw, 0, .any⟩]⟩,
  ⟨0x0e0, 0x0, 1, [⟨31, 31, .rw, 0, .any⟩, ⟨30, 30, .rw, 0, .any⟩, ⟨29, 16, .rsv, 0, .any⟩, ⟨15, 8, .rw, 0, .any⟩, ⟨7, 4, .rsv, 0, .any⟩, ⟨3, 0, .rw, 1, (.range 1 8)⟩]⟩,
  ⟨0x0e4, 0x0, 1, [⟨31, 0, .rw, 0, .any⟩]⟩,
  ⟨0x0e8, 0x0, 1, [⟨31, 0, .rw, 0, .any⟩]⟩,
  ⟨0x0ec, 0x0, 1, [⟨31, 16, .ro, 0, .any⟩, ⟨15, 0, .rw, 0, .any⟩]⟩,
  ⟨0x0f0, 0x0, 1, [⟨31, 31, .rw, 0, .any⟩, ⟨30, 30, .rw, 0, .any⟩, ⟨29, 27, .rw, 0, (.range 0 5)⟩, ⟨26, 25, .rw, 1, (.range 0 2)⟩, ⟨24, 21, .rw, 1, (.range 1 8)⟩, ⟨20, 13, .rw, 0, .any⟩, ⟨12, 0, .rsv, 0, .any⟩]⟩,
  ⟨0x0f4, 0x0, 1, [⟨31, 0, .rw, 0, .any⟩]⟩,
  ⟨0x0f8, 0x0, 1, [⟨31, 0, .rw, 0, .any⟩]⟩,
  ⟨0x0fc, 0x0, 1, [⟨31, 16, .ro, 0, .any⟩, ⟨15, 0, .rw, 0, .any⟩]⟩] ++
[
  ⟨0x100, 0x0, 1, [⟨31, 16, .ro, 0, .any⟩, ⟨15, 0, .ro, 0, .any⟩]⟩]

/-- Registers of the `feSlm` page (R318, R383, R431). -/
def feSlmRegs : List RegRow := [
  ⟨0x040, 0x0, 1, [⟨31, 13, .rsv, 0, .any⟩, ⟨12, 12, .w1s, 0, .any⟩, ⟨11, 11, .w1s, 0, .any⟩, ⟨10, 8, .rw, 0, (.range 0 2)⟩, ⟨7, 0, .rsv, 0, .any⟩]⟩,
  ⟨0x044, 0x0, 1, [⟨31, 15, .rsv, 0, .any⟩, ⟨14, 12, .ro, 0, .any⟩, ⟨11, 11, .ro, 0, .any⟩, ⟨10, 8, .ro, 0, .any⟩, ⟨7, 4, .ro, 0, .any⟩, ⟨3, 0, .ro, 0, .any⟩]⟩,
  ⟨0x048, 0x0, 1, [⟨31, 0, .ro, 0, .any⟩]⟩,
  ⟨0x04c, 0x0, 1, [⟨31, 0, .ro, 0, .any⟩]⟩,
  ⟨0x050, 0x0, 1, [⟨31, 0, .ro, 0, .any⟩]⟩,
  ⟨0x054, 0x0, 1, [⟨31, 16, .ro, 0, .any⟩, ⟨15, 0, .ro, 0, .any⟩]⟩,
  ⟨0x058, 0x0, 1, [⟨31, 16, .ro, 0, .any⟩, ⟨15, 0, .ro, 0, .any⟩]⟩,
  ⟨0x05c, 0x0, 1, [⟨31, 16, .ro, 0, .any⟩, ⟨15, 0, .ro, 0, .any⟩]⟩,
  ⟨0x060, 0x0, 1, [⟨31, 0, .ro, 2147483647, .any⟩]⟩,
  ⟨0x064, 0x0, 1, [⟨31, 16, .rsv, 0, .any⟩, ⟨15, 12, .ro, 0, .any⟩, ⟨11, 6, .rsv, 0, .any⟩, ⟨5, 4, .ro, 3, .any⟩, ⟨3, 2, .rsv, 0, .any⟩, ⟨1, 0, .ro, 0, .any⟩]⟩] ++
[
  ⟨0x068, 0x0, 1, [⟨31, 0, .ro, 0, .any⟩]⟩,
  ⟨0x06c, 0x0, 1, [⟨31, 16, .ro, 0, .any⟩, ⟨15, 13, .rsv, 0, .any⟩, ⟨12, 0, .ro, 0, .any⟩]⟩,
  ⟨0x070, 0x0, 1, [⟨31, 16, .ro, 0, .any⟩, ⟨15, 0, .ro, 0, .any⟩]⟩,
  ⟨0x074, 0x0, 1, [⟨31, 16, .ro, 0, .any⟩, ⟨15, 0, .ro, 0, .any⟩]⟩,
  ⟨0x078, 0x0, 1, [⟨31, 16, .ro, 0, .any⟩, ⟨15, 8, .ro, 0, .any⟩, ⟨7, 0, .ro, 0, .any⟩]⟩,
  ⟨0x07c, 0x0, 1, [⟨31, 16, .ro, 0, .any⟩, ⟨15, 8, .ro, 0, .any⟩, ⟨7, 0, .ro, 0, .any⟩]⟩]

/-- Registers of the `mxCommon` page (R403). -/
def mxCommonRegs : List RegRow := [
  ⟨0x040, 0x0, 1, [⟨31, 1, .rsv, 0, .any⟩, ⟨0, 0, .wo, 0, .any⟩]⟩,
  ⟨0x044, 0x0, 1, [⟨31, 16, .ro, 0, .any⟩, ⟨15, 9, .rsv, 0, .any⟩, ⟨8, 8, .ro, 0, .any⟩, ⟨7, 0, .ro, 0, .any⟩]⟩,
  ⟨0x048, 0x0, 1, [⟨31, 16, .rsv, 0, .any⟩, ⟨15, 0, .rw, 0, .any⟩]⟩,
  ⟨0x04c, 0x0, 1, [⟨31, 0, .ro, 0, .any⟩]⟩,
  ⟨0x080, 0x8, 8, [⟨31, 31, .rw, 0, .any⟩, ⟨30, 30, .rw, 0, .any⟩, ⟨29, 14, .rsv, 0, .any⟩, ⟨13, 0, .rw, 0, .any⟩]⟩,
  ⟨0x084, 0x8, 8, [⟨31, 20, .rsv, 0, .any⟩, ⟨19, 16, .rw, 0, .any⟩, ⟨15, 14, .rsv, 0, .any⟩, ⟨13, 0, .rw, 0, .any⟩]⟩]

/-- Registers of the `mxCh` page (R403). -/
def mxChRegs : List RegRow := [
  ⟨0x040, 0x0, 1, [⟨31, 4, .rsv, 0, .any⟩, ⟨3, 3, .w1s, 0, .any⟩, ⟨2, 0, .rw, 3, (.range 1 7)⟩]⟩,
  ⟨0x044, 0x0, 1, [⟨31, 16, .ro, 0, .any⟩, ⟨15, 2, .rsv, 0, .any⟩, ⟨1, 0, .ro, 0, .any⟩]⟩,
  ⟨0x048, 0x0, 1, [⟨31, 16, .ro, 0, .any⟩, ⟨15, 0, .ro, 0, .any⟩]⟩,
  ⟨0x04c, 0x0, 1, [⟨31, 0, .ro, 0, .any⟩]⟩,
  ⟨0x050, 0x0, 1, [⟨31, 16, .ro, 0, .any⟩, ⟨15, 0, .ro, 0, .any⟩]⟩]

/-- Registers of the `nsCommon` page (R496). -/
def nsCommonRegs : List RegRow := [
  ⟨0x040, 0x0, 1, [⟨31, 28, .ro, 0, .any⟩, ⟨27, 2, .rsv, 0, .any⟩, ⟨1, 0, .ro, 0, .any⟩]⟩,
  ⟨0x044, 0x0, 1, [⟨31, 24, .ro, 0, .any⟩, ⟨23, 16, .ro, 0, .any⟩, ⟨15, 8, .rsv, 0, .any⟩, ⟨7, 0, .ro, 0, .any⟩]⟩,
  ⟨0x048, 0x0, 1, [⟨31, 28, .rsv, 0, .any⟩, ⟨27, 0, .ro, 0, .any⟩]⟩,
  ⟨0x04c, 0x0, 1, [⟨31, 16, .ro, 32, .any⟩, ⟨15, 0, .ro, 16, .any⟩]⟩,
  ⟨0x050, 0x0, 1, [⟨31, 0, .ro, 0, .any⟩]⟩,
  ⟨0x054, 0x0, 1, [⟨31, 0, .ro, 0, .any⟩]⟩,
  ⟨0x058, 0x0, 1, [⟨31, 0, .ro, 0, .any⟩]⟩,
  ⟨0x05c, 0x0, 1, [⟨31, 0, .ro, 0, .any⟩]⟩,
  ⟨0x060, 0x0, 1, [⟨31, 16, .ro, 0, .any⟩, ⟨15, 0, .ro, 0, .any⟩]⟩,
  ⟨0x064, 0x0, 1, [⟨31, 16, .ro, 0, .any⟩, ⟨15, 0, .ro, 0, .any⟩]⟩] ++
[
  ⟨0x068, 0x0, 1, [⟨31, 16, .ro, 0, .any⟩, ⟨15, 0, .ro, 0, .any⟩]⟩]

/-- Registers of the `nsCh` page (R496). -/
def nsChRegs : List RegRow := [
  ⟨0x040, 0x0, 1, [⟨31, 28, .ro, 0, .any⟩, ⟨27, 16, .ro, 0, .any⟩, ⟨15, 4, .rsv, 0, .any⟩, ⟨3, 0, .ro, 0, .any⟩]⟩,
  ⟨0x044, 0x0, 1, [⟨31, 16, .ro, 0, .any⟩, ⟨15, 0, .ro, 0, .any⟩]⟩,
  ⟨0x048, 0x0, 1, [⟨31, 16, .ro, 0, .any⟩, ⟨15, 0, .ro, 0, .any⟩]⟩,
  ⟨0x04c, 0x0, 1, [⟨31, 0, .ro, 0, .any⟩]⟩]

/-- Registers of the `pxCommon` page (R531). -/
def pxCommonRegs : List RegRow := [
  ⟨0x040, 0x0, 1, [⟨31, 16, .rsv, 0, .any⟩, ⟨15, 12, .ro, 0, .any⟩, ⟨11, 8, .rsv, 0, .any⟩, ⟨7, 0, .ro, 0, .any⟩]⟩,
  ⟨0x044, 0x0, 1, [⟨31, 6, .rsv, 0, .any⟩, ⟨5, 0, .rw, 0, .any⟩]⟩,
  ⟨0x048, 0x0, 1, [⟨31, 16, .ro, 0, .any⟩, ⟨15, 0, .ro, 0, .any⟩]⟩]

/-- Registers of the `pxFault` page (R531). -/
def pxFaultRegs : List RegRow := [
  ⟨0x040, 0x0, 1, [⟨31, 0, .rw, 0, .any⟩]⟩,
  ⟨0x044, 0x0, 1, [⟨31, 0, .rw, 0, .any⟩]⟩,
  ⟨0x048, 0x0, 1, [⟨31, 31, .rw, 0, .any⟩, ⟨30, 4, .rsv, 0, .any⟩, ⟨3, 0, .rw, 4, (.range 4 15)⟩]⟩,
  ⟨0x04c, 0x0, 1, [⟨31, 16, .ro, 0, .any⟩, ⟨15, 0, .rw, 0, .any⟩]⟩,
  ⟨0x050, 0x0, 1, [⟨31, 0, .ro, 0, .any⟩]⟩]

/-- Registers of the `pxCmd` page (R532). -/
def pxCmdRegs : List RegRow := [
  ⟨0x040, 0x0, 1, [⟨31, 0, .rw, 0, .any⟩]⟩,
  ⟨0x044, 0x0, 1, [⟨31, 0, .rw, 0, .any⟩]⟩,
  ⟨0x048, 0x0, 1, [⟨31, 0, .rw, 0, .any⟩]⟩,
  ⟨0x04c, 0x0, 1, [⟨31, 0, .rw, 0, .any⟩]⟩,
  ⟨0x050, 0x0, 1, [⟨31, 31, .rw, 0, .any⟩, ⟨30, 8, .rsv, 0, .any⟩, ⟨7, 4, .rw, 1, (.range 1 8)⟩, ⟨3, 0, .rw, 1, (.range 1 8)⟩]⟩,
  ⟨0x054, 0x0, 1, [⟨31, 16, .rsv, 0, .any⟩, ⟨15, 0, .rw, 0, .any⟩]⟩,
  ⟨0x058, 0x0, 1, [⟨31, 16, .rsv, 0, .any⟩, ⟨15, 0, .ro, 0, .any⟩]⟩,
  ⟨0x05c, 0x0, 1, [⟨31, 16, .rsv, 0, .any⟩, ⟨15, 0, .ro, 0, .any⟩]⟩,
  ⟨0x060, 0x0, 1, [⟨31, 16, .rsv, 0, .any⟩, ⟨15, 0, .rw, 0, .any⟩]⟩]

/-- Registers of the `pxVr` page (R533). -/
def pxVrRegs : List RegRow := [
  ⟨0x040, 0x0, 1, [⟨31, 0, .rw, 0, .any⟩]⟩,
  ⟨0x044, 0x0, 1, [⟨31, 0, .rw, 0, .any⟩]⟩,
  ⟨0x048, 0x0, 1, [⟨31, 31, .rw, 0, .any⟩, ⟨30, 30, .ro, 0, .any⟩, ⟨29, 29, .rw, 0, .any⟩, ⟨28, 4, .rsv, 0, .any⟩, ⟨3, 0, .rw, 1, (.range 1 14)⟩]⟩,
  ⟨0x04c, 0x0, 1, [⟨31, 0, .ro, 0, .any⟩]⟩,
  ⟨0x050, 0x0, 1, [⟨31, 0, .rw, 0, .any⟩]⟩,
  ⟨0x054, 0x0, 1, [⟨31, 0, .ro, 0, .any⟩]⟩]

/-- Registers of the `tzCommon` page (R534). -/
def tzCommonRegs : List RegRow := [
  ⟨0x040, 0x0, 1, [⟨31, 2, .rsv, 0, .any⟩, ⟨1, 0, .wo, 0, .any⟩]⟩,
  ⟨0x044, 0x0, 1, [⟨31, 16, .rsv, 0, .any⟩, ⟨15, 8, .ro, 255, .any⟩, ⟨7, 4, .rsv, 0, .any⟩, ⟨3, 0, .ro, 0, .any⟩]⟩]

/-- Registers of the `tzPort` page (R534). -/
def tzPortRegs : List RegRow := [
  ⟨0x040, 0x0, 1, [⟨31, 2, .rsv, 0, .any⟩, ⟨1, 1, .w1s, 0, .any⟩, ⟨0, 0, .rw, 0, .any⟩]⟩,
  ⟨0x044, 0x0, 1, [⟨31, 29, .ro, 0, .any⟩, ⟨28, 26, .rsv, 0, .any⟩, ⟨25, 24, .ro, 0, .any⟩, ⟨23, 4, .rsv, 0, .any⟩, ⟨3, 0, .ro, 0, .any⟩]⟩,
  ⟨0x048, 0x0, 1, [⟨31, 16, .ro, 0, .any⟩, ⟨15, 8, .ro, 0, .any⟩, ⟨7, 0, .ro, 0, .any⟩]⟩,
  ⟨0x04c, 0x0, 1, [⟨31, 16, .ro, 0, .any⟩, ⟨15, 0, .ro, 0, .any⟩]⟩]

/-- Registers of the `cl` page (R355). -/
def clRegs : List RegRow := [
  ⟨0x040, 0x0, 1, [⟨31, 3, .rsv, 0, .any⟩, ⟨2, 0, .rw, 1, (.range 1 4)⟩]⟩,
  ⟨0x044, 0x0, 1, [⟨31, 16, .rsv, 0, .any⟩, ⟨15, 8, .ro, 0, .any⟩, ⟨7, 3, .rsv, 0, .any⟩, ⟨2, 0, .ro, 0, .any⟩]⟩,
  ⟨0x048, 0x0, 1, [⟨31, 16, .rsv, 0, .any⟩, ⟨15, 12, .ro, 0, .any⟩, ⟨11, 8, .ro, 0, .any⟩, ⟨7, 4, .ro, 0, .any⟩, ⟨3, 0, .ro, 0, .any⟩]⟩,
  ⟨0x04c, 0x0, 1, [⟨31, 0, .ro, 0, .any⟩]⟩,
  ⟨0x050, 0x0, 1, [⟨31, 0, .ro, 0, .any⟩]⟩,
  ⟨0x054, 0x0, 1, [⟨31, 16, .ro, 0, .any⟩, ⟨15, 0, .ro, 0, .any⟩]⟩,
  ⟨0x058, 0x0, 1, [⟨31, 0, .ro, 0, .any⟩]⟩,
  ⟨0x080, 0x4, 8, [⟨31, 16, .rsv, 0, .any⟩, ⟨15, 0, .ro, 0, .any⟩]⟩]

/-- Registers of the `gd` page (R356). -/
def gdRegs : List RegRow := [
  ⟨0x040, 0x0, 1, [⟨31, 16, .rw, 2048, (.range 64 65535)⟩, ⟨15, 1, .rsv, 0, .any⟩, ⟨0, 0, .rw, 0, .any⟩]⟩,
  ⟨0x044, 0x0, 1, [⟨31, 16, .ro, 0, .any⟩, ⟨15, 0, .ro, 0, .any⟩]⟩,
  ⟨0x048, 0x0, 1, [⟨31, 16, .rsv, 0, .any⟩, ⟨15, 0, .ro, 0, .any⟩]⟩,
  ⟨0x04c, 0x0, 1, [⟨31, 9, .rsv, 0, .any⟩, ⟨8, 8, .rw, 0, .any⟩, ⟨7, 4, .rw, 0, .any⟩, ⟨3, 0, .rw, 0, .any⟩]⟩,
  ⟨0x050, 0x0, 1, [⟨31, 0, .ro, 0, .any⟩]⟩]

/-- Registers of the `dmCommon` page (R357). -/
def dmCommonRegs : List RegRow := [
  ⟨0x040, 0x0, 1, [⟨31, 16, .rsv, 0, .any⟩, ⟨15, 0, .ro, 0, .any⟩]⟩,
  ⟨0x044, 0x0, 1, [⟨31, 0, .ro, 0, .any⟩]⟩]

/-- Registers of the `dmCh` page (R357). -/
def dmChRegs : List RegRow := [
  ⟨0x040, 0x0, 1, [⟨31, 31, .w1s, 0, .any⟩, ⟨30, 30, .w1s, 0, .any⟩, ⟨29, 29, .rw, 0, .any⟩, ⟨28, 3, .rsv, 0, .any⟩, ⟨2, 0, .rw, 0, .any⟩]⟩,
  ⟨0x044, 0x0, 1, [⟨31, 31, .ro, 0, .any⟩, ⟨30, 30, .ro, 0, .any⟩, ⟨29, 3, .rsv, 0, .any⟩, ⟨2, 0, .ro, 0, .any⟩]⟩,
  ⟨0x080, 0x20, 8, [⟨31, 0, .rw, 0, .any⟩]⟩,
  ⟨0x084, 0x20, 8, [⟨31, 0, .rw, 0, .any⟩]⟩,
  ⟨0x088, 0x20, 8, [⟨31, 0, .rw, 0, .any⟩]⟩,
  ⟨0x08c, 0x20, 8, [⟨31, 0, .rw, 0, .any⟩]⟩,
  ⟨0x090, 0x20, 8, [⟨31, 0, .rw, 0, .any⟩]⟩,
  ⟨0x094, 0x20, 8, [⟨31, 30, .rw, 0, (.range 0 1)⟩, ⟨29, 27, .ro, 0, .any⟩, ⟨26, 26, .rw, 0, .any⟩, ⟨25, 24, .rw, 0, .any⟩, ⟨23, 22, .rw, 0, .any⟩, ⟨21, 21, .rw, 0, .any⟩, ⟨20, 13, .rw, 0, .any⟩, ⟨12, 0, .rsv, 0, .any⟩]⟩,
  ⟨0x098, 0x20, 8, [⟨31, 0, .rw, 0, .any⟩]⟩,
  ⟨0x09c, 0x20, 8, [⟨31, 0, .ro, 0, .any⟩]⟩]

/-- Registers of the `wn` page (R358). -/
def wnRegs : List RegRow := [
  ⟨0x040, 0x0, 1, [⟨31, 16, .ro, 0, .any⟩, ⟨15, 0, .rsv, 0, .any⟩]⟩,
  ⟨0x044, 0x0, 1, [⟨31, 31, .ro, 0, .any⟩, ⟨30, 11, .rsv, 0, .any⟩, ⟨10, 8, .ro, 0, .any⟩, ⟨7, 0, .ro, 0, .any⟩]⟩,
  ⟨0x080, 0x4, 8, [⟨31, 0, .w1c, 0, .any⟩]⟩]

/-- Registers of the `wnTab` page (R358). -/
def wnTabRegs : List RegRow := [
  ⟨0x800, 0x20, 64, [⟨31, 30, .ro, 0, .any⟩, ⟨29, 29, .rw, 0, .any⟩, ⟨28, 28, .ro, 0, .any⟩, ⟨27, 27, .rw, 0, .any⟩, ⟨26, 26, .rw, 0, .any⟩, ⟨25, 22, .rw, 0, .any⟩, ⟨21, 18, .rw, 0, .any⟩, ⟨17, 0, .rsv, 0, .any⟩]⟩,
  ⟨0x804, 0x20, 64, [⟨31, 0, .rw, 0, .any⟩]⟩,
  ⟨0x808, 0x20, 64, [⟨31, 28, .rsv, 0, .any⟩, ⟨27, 0, .rw, 0, .any⟩]⟩,
  ⟨0x80c, 0x20, 64, [⟨31, 0, .ro, 0, .any⟩]⟩,
  ⟨0x810, 0x20, 64, [⟨31, 0, .rw, 0, .any⟩]⟩,
  ⟨0x814, 0x20, 64, [⟨31, 16, .ro, 0, .any⟩, ⟨15, 0, .ro, 0, .any⟩]⟩]

/-- Registers of the `tb` page (R555). -/
def tbRegs : List RegRow := [
  ⟨0x040, 0x0, 1, [⟨31, 3, .rsv, 0, .any⟩, ⟨2, 2, .rw, 0, .any⟩, ⟨1, 1, .rw, 0, .any⟩, ⟨0, 0, .rw, 0, .any⟩]⟩,
  ⟨0x044, 0x0, 1, [⟨31, 16, .rsv, 0, .any⟩, ⟨15, 0, .ro, 0, .any⟩]⟩,
  ⟨0x048, 0x0, 1, [⟨31, 0, .ro, 0, .any⟩]⟩,
  ⟨0x04c, 0x0, 1, [⟨31, 0, .ro, 0, .any⟩]⟩,
  ⟨0x050, 0x0, 1, [⟨31, 0, .rw, 0, .any⟩]⟩,
  ⟨0x054, 0x0, 1, [⟨31, 0, .rw, 0, .any⟩]⟩,
  ⟨0x058, 0x0, 1, [⟨31, 0, .rw, 0, .any⟩]⟩,
  ⟨0x05c, 0x0, 1, [⟨31, 8, .rsv, 0, .any⟩, ⟨7, 0, .rw, 4, .any⟩]⟩,
  ⟨0x060, 0x0, 1, [⟨31, 28, .rw, 2, .any⟩, ⟨27, 24, .rw, 6, .any⟩, ⟨23, 10, .rsv, 0, .any⟩, ⟨9, 0, .rw, 200, (.range 1 1000)⟩]⟩,
  ⟨0x064, 0x0, 1, [⟨31, 16, .rw, 100, .any⟩, ⟨15, 0, .rw, 100, .any⟩]⟩] ++
[
  ⟨0x068, 0x0, 1, [⟨31, 0, .rw, 0, .any⟩]⟩,
  ⟨0x06c, 0x0, 1, [⟨31, 0, .ro, 0, .any⟩]⟩,
  ⟨0x070, 0x0, 1, [⟨31, 0, .ro, 0, .any⟩]⟩,
  ⟨0x074, 0x0, 1, [⟨31, 0, .ro, 0, .any⟩]⟩,
  ⟨0x078, 0x0, 1, [⟨31, 28, .ro, 0, .any⟩, ⟨27, 16, .rsv, 0, .any⟩, ⟨15, 0, .ro, 0, .any⟩]⟩,
  ⟨0x07c, 0x0, 1, [⟨31, 0, .ro, 0, .any⟩]⟩,
  ⟨0x080, 0x10, 4, [⟨31, 6, .rsv, 0, .any⟩, ⟨5, 3, .rw, 3, .any⟩, ⟨2, 2, .rw, 0, .any⟩, ⟨1, 1, .rsv, 0, .any⟩, ⟨0, 0, .rw, 0, .any⟩]⟩,
  ⟨0x084, 0x10, 4, [⟨31, 0, .rw, 0, .any⟩]⟩,
  ⟨0x088, 0x10, 4, [⟨31, 0, .ro, 0, .any⟩]⟩,
  ⟨0x100, 0x20, 16, [⟨31, 31, .rw, 0, .any⟩, ⟨30, 30, .rw, 1, .any⟩, ⟨29, 29, .rw, 0, .any⟩, ⟨28, 27, .rw, 0, .any⟩, ⟨26, 16, .rsv, 0, .any⟩, ⟨15, 0, .rw, 100, (.range 1 65535)⟩]⟩] ++
[
  ⟨0x104, 0x20, 16, [⟨31, 16, .rw, 1000, .any⟩, ⟨15, 0, .rw, 0, .any⟩]⟩,
  ⟨0x108, 0x20, 16, [⟨31, 0, .rw, 0, .any⟩]⟩,
  ⟨0x10c, 0x20, 16, [⟨31, 0, .rw, 0, .any⟩]⟩,
  ⟨0x110, 0x20, 16, [⟨31, 31, .w1s, 0, .any⟩, ⟨30, 30, .rw, 0, .any⟩, ⟨29, 0, .rsv, 0, .any⟩]⟩,
  ⟨0x114, 0x20, 16, [⟨31, 24, .ro, 0, .any⟩, ⟨23, 16, .ro, 0, .any⟩, ⟨15, 8, .ro, 0, .any⟩, ⟨7, 0, .ro, 0, .any⟩]⟩,
  ⟨0x118, 0x20, 16, [⟨31, 0, .ro, 0, .any⟩]⟩,
  ⟨0x300, 0x0, 1, [⟨31, 16, .rsv, 0, .any⟩, ⟨15, 0, .rw, 0, .any⟩]⟩,
  ⟨0x304, 0x0, 1, [⟨31, 16, .rsv, 0, .any⟩, ⟨15, 0, .rw, 0, .any⟩]⟩,
  ⟨0x308, 0x0, 1, [⟨31, 16, .rsv, 0, .any⟩, ⟨15, 0, .ro, 0, .any⟩]⟩,
  ⟨0x30c, 0x0, 1, [⟨31, 16, .rw, 0, .any⟩, ⟨15, 0, .rw, 0, .any⟩]⟩] ++
[
  ⟨0x320, 0x8, 16, [⟨31, 0, .ro, 0, .any⟩]⟩,
  ⟨0x324, 0x8, 16, [⟨31, 0, .ro, 0, .any⟩]⟩]

/-- Registers of the `ck` page (R577). -/
def ckRegs : List RegRow := [
  ⟨0x040, 0x0, 1, [⟨31, 0, .rw, 4294967295, .any⟩]⟩,
  ⟨0x044, 0x0, 1, [⟨31, 28, .rsv, 0, .any⟩, ⟨27, 0, .rw, 268435455, .any⟩]⟩,
  ⟨0x048, 0x0, 1, [⟨31, 0, .rw, 4294967295, .any⟩]⟩,
  ⟨0x04c, 0x0, 1, [⟨31, 28, .rsv, 0, .any⟩, ⟨27, 0, .rw, 268435455, .any⟩]⟩,
  ⟨0x050, 0x0, 1, [⟨31, 0, .rw, 4294967295, .any⟩]⟩,
  ⟨0x054, 0x0, 1, [⟨31, 28, .rsv, 0, .any⟩, ⟨27, 0, .rw, 268435455, .any⟩]⟩,
  ⟨0x058, 0x0, 1, [⟨31, 0, .ro, 0, .any⟩]⟩,
  ⟨0x05c, 0x0, 1, [⟨31, 0, .w1c, 0, .any⟩]⟩,
  ⟨0x060, 0x0, 1, [⟨31, 31, .rw, 0, .any⟩, ⟨30, 30, .ro, 0, .any⟩, ⟨29, 22, .rsv, 0, .any⟩, ⟨21, 16, .rw, 0, (.range 0 59)⟩, ⟨15, 12, .rsv, 0, .any⟩, ⟨11, 0, .rw, 0, .any⟩]⟩,
  ⟨0x064, 0x0, 1, [⟨31, 16, .ro, 500, .any⟩, ⟨15, 3, .rsv, 0, .any⟩, ⟨2, 0, .ro, 0, .any⟩]⟩]

/-- Registers of the `pw` page (R430, R578). -/
def pwRegs : List RegRow := [
  ⟨0x200, 0x20, 4, [⟨31, 31, .w1s, 0, .any⟩, ⟨30, 30, .w1s, 0, .any⟩, ⟨29, 29, .rw, 1, .any⟩, ⟨28, 24, .rsv, 0, .any⟩, ⟨23, 16, .rw, 4, (.range 1 255)⟩, ⟨15, 0, .rw, 1000, .any⟩]⟩,
  ⟨0x204, 0x20, 4, [⟨31, 24, .ro, 0, .any⟩, ⟨23, 8, .ro, 0, .any⟩, ⟨7, 2, .rsv, 0, .any⟩, ⟨1, 0, .ro, 0, .any⟩]⟩,
  ⟨0x208, 0x20, 4, [⟨31, 16, .rw, 1000, (.range 1 65535)⟩, ⟨15, 0, .rw, 0, .any⟩]⟩,
  ⟨0x20c, 0x20, 4, [⟨31, 16, .ro, 0, .any⟩, ⟨15, 0, .ro, 0, .any⟩]⟩,
  ⟨0x210, 0x20, 4, [⟨31, 0, .ro, 0, .any⟩]⟩,
  ⟨0x214, 0x20, 4, [⟨31, 0, .ro, 0, .any⟩]⟩,
  ⟨0x280, 0x0, 1, [⟨31, 16, .ro, 0, .any⟩, ⟨15, 0, .ro, 0, .any⟩]⟩,
  ⟨0x040, 0x0, 1, [⟨31, 3, .rsv, 0, .any⟩, ⟨2, 0, .rw, 0, (.oneOf [0, 2, 3, 4, 5])⟩]⟩,
  ⟨0x044, 0x0, 1, [⟨31, 28, .ro, 0, .any⟩, ⟨27, 7, .rsv, 0, .any⟩, ⟨6, 4, .ro, 0, .any⟩, ⟨3, 3, .rsv, 0, .any⟩, ⟨2, 0, .ro, 0, .any⟩]⟩,
  ⟨0x048, 0x0, 1, [⟨31, 18, .rsv, 0, .any⟩, ⟨17, 17, .rw, 0, .any⟩, ⟨16, 16, .rw, 1, .any⟩, ⟨15, 0, .rw, 0, .any⟩]⟩] ++
[
  ⟨0x04c, 0x0, 1, [⟨31, 18, .rsv, 0, .any⟩, ⟨17, 0, .ro, 0, .any⟩]⟩,
  ⟨0x050, 0x0, 1, [⟨31, 0, .rw, 0, .any⟩]⟩,
  ⟨0x054, 0x0, 1, [⟨31, 0, .rw, 0, .any⟩]⟩,
  ⟨0x058, 0x0, 1, [⟨31, 31, .rw, 1, .any⟩, ⟨30, 27, .rsv, 0, .any⟩, ⟨26, 24, .rw, 4, (.range 0 4)⟩, ⟨23, 16, .rw, 105, (.range 60 115)⟩, ⟨15, 8, .rw, 5, (.range 1 20)⟩, ⟨7, 0, .rw, 112, (.range 95 115)⟩]⟩,
  ⟨0x05c, 0x0, 1, [⟨31, 16, .ro, 0, .any⟩, ⟨15, 8, .ro, 0, .any⟩, ⟨7, 0, .ro, 0, .any⟩]⟩,
  ⟨0x060, 0x0, 1, [⟨31, 16, .ro, 0, .any⟩, ⟨15, 0, .ro, 0, .any⟩]⟩]

/-- Registers of the `wx` page (R595). -/
def wxRegs : List RegRow := [
  ⟨0x040, 0x0, 1, [⟨31, 31, .w1s, 0, .any⟩, ⟨30, 16, .rsv, 0, .any⟩, ⟨15, 8, .rw, 0, .any⟩, ⟨7, 0, .rw, 6, (.range 0 40)⟩]⟩,
  ⟨0x044, 0x0, 1, [⟨31, 31, .ro, 0, .any⟩, ⟨30, 30, .ro, 0, .any⟩, ⟨29, 29, .ro, 0, .any⟩, ⟨28, 20, .rsv, 0, .any⟩, ⟨19, 16, .ro, 0, .any⟩, ⟨15, 0, .ro, 0, .any⟩]⟩,
  ⟨0x048, 0x0, 1, [⟨31, 0, .ro, 0, .any⟩]⟩,
  ⟨0x04c, 0x0, 1, [⟨31, 0, .ro, 0, .any⟩]⟩,
  ⟨0x050, 0x0, 1, [⟨31, 16, .rsv, 0, .any⟩, ⟨15, 0, .ro, 0, .any⟩]⟩,
  ⟨0x054, 0x0, 1, [⟨31, 0, .ro, 0, .any⟩]⟩,
  ⟨0x058, 0x0, 1, [⟨31, 11, .rsv, 0, .any⟩, ⟨10, 8, .rw, 0, .any⟩, ⟨7, 0, .rw, 0, .any⟩]⟩,
  ⟨0x05c, 0x0, 1, [⟨31, 8, .rsv, 0, .any⟩, ⟨7, 0, .ro, 0, .any⟩]⟩,
  ⟨0x100, 0x4, 64, [⟨31, 31, .ro, 1, .any⟩, ⟨30, 16, .rsv, 0, .any⟩, ⟨15, 0, .ro, 0, .any⟩]⟩]

/-- Registers of the `pc` page (R606). -/
def pcRegs : List RegRow := [
  ⟨0x040, 0x0, 1, [⟨31, 31, .w1s, 0, .any⟩, ⟨30, 30, .w1s, 0, .any⟩, ⟨29, 29, .w1s, 0, .any⟩, ⟨28, 28, .w1s, 0, .any⟩, ⟨27, 27, .rw, 0, .any⟩, ⟨26, 26, .ro, 0, .any⟩, ⟨25, 25, .ro, 0, .any⟩, ⟨24, 24, .ro, 0, .any⟩, ⟨23, 16, .rsv, 0, .any⟩, ⟨15, 0, .rw, 0, .any⟩]⟩,
  ⟨0x044, 0x0, 1, [⟨31, 0, .rw, 0, .any⟩]⟩,
  ⟨0x048, 0x0, 1, [⟨31, 0, .rw, 0, .any⟩]⟩,
  ⟨0x04c, 0x0, 1, [⟨31, 0, .ro, 0, .any⟩]⟩,
  ⟨0x050, 0x0, 1, [⟨31, 0, .ro, 0, .any⟩]⟩,
  ⟨0x080, 0x10, 16, [⟨31, 31, .rw, 0, .any⟩, ⟨30, 24, .rw, 0, (.range 0 33)⟩, ⟨23, 20, .rsv, 0, .any⟩, ⟨19, 0, .rw, 1000, (.range 1 1000000)⟩]⟩,
  ⟨0x084, 0x10, 16, [⟨31, 0, .ro, 0, .any⟩]⟩,
  ⟨0x088, 0x10, 16, [⟨31, 0, .ro, 0, .any⟩]⟩,
  ⟨0x08c, 0x10, 16, [⟨31, 0, .ro, 0, .any⟩]⟩]

/-- Registers of the `rk` page (R282). -/
def rkRegs : List RegRow := [
  ⟨0x040, 0x0, 1, [⟨31, 17, .rsv, 0, .any⟩, ⟨16, 0, .rw, 0, .any⟩]⟩,
  ⟨0x044, 0x0, 1, [⟨31, 16, .ro, 0, .any⟩, ⟨15, 12, .ro, 0, .any⟩, ⟨11, 3, .rsv, 0, .any⟩, ⟨2, 0, .ro, 0, .any⟩]⟩,
  ⟨0x048, 0x0, 1, [⟨31, 18, .rsv, 0, .any⟩, ⟨17, 10, .ro, 0, .any⟩, ⟨9, 9, .ro, 0, .any⟩, ⟨8, 1, .ro, 0, .any⟩, ⟨0, 0, .ro, 0, .any⟩]⟩,
  ⟨0x04c, 0x0, 1, [⟨31, 21, .rsv, 0, .any⟩, ⟨20, 16, .ro, 0, .any⟩, ⟨15, 13, .rsv, 0, .any⟩, ⟨12, 0, .ro, 0, .any⟩]⟩,
  ⟨0x050, 0x0, 1, [⟨31, 16, .ro, 0, .any⟩, ⟨15, 0, .ro, 0, .any⟩]⟩,
  ⟨0x054, 0x0, 1, [⟨31, 16, .ro, 0, .any⟩, ⟨15, 0, .ro, 0, .any⟩]⟩,
  ⟨0x058, 0x0, 1, [⟨31, 8, .rsv, 0, .any⟩, ⟨7, 7, .ro, 0, .any⟩, ⟨6, 6, .rsv, 0, .any⟩, ⟨5, 0, .ro, 0, .any⟩]⟩,
  ⟨0x05c, 0x0, 1, [⟨31, 31, .ro, 0, .any⟩, ⟨30, 4, .rsv, 0, .any⟩, ⟨3, 0, .ro, 0, .any⟩]⟩,
  ⟨0x060, 0x0, 1, [⟨31, 16, .ro, 0, .any⟩, ⟨15, 0, .rsv, 0, .any⟩]⟩,
  ⟨0x100, 0x4, 64, [⟨31, 16, .rsv, 0, .any⟩, ⟨15, 8, .rw, 0, .any⟩, ⟨7, 0, .rw, 0, .any⟩]⟩]

/-- Registers of the `cr` page (R200, R227). -/
def crRegs : List RegRow := [
  ⟨0x040, 0x0, 1, [⟨31, 16, .rsv, 0, .any⟩, ⟨15, 8, .rw, 0, .any⟩, ⟨7, 3, .rsv, 0, .any⟩, ⟨2, 2, .w1s, 0, .any⟩, ⟨1, 1, .w1s, 0, .any⟩, ⟨0, 0, .rw, 0, .any⟩]⟩,
  ⟨0x044, 0x0, 1, [⟨31, 24, .ro, 0, .any⟩, ⟨23, 18, .ro, 0, .any⟩, ⟨17, 17, .ro, 0, .any⟩, ⟨16, 16, .ro, 0, .any⟩, ⟨15, 5, .rsv, 0, .any⟩, ⟨4, 0, .ro, 0, .any⟩]⟩,
  ⟨0x048, 0x0, 1, [⟨31, 31, .ro, 0, .any⟩, ⟨30, 17, .rsv, 0, .any⟩, ⟨16, 0, .ro, 0, .any⟩]⟩,
  ⟨0x04c, 0x0, 1, [⟨31, 31, .ro, 0, .any⟩, ⟨30, 17, .rsv, 0, .any⟩, ⟨16, 0, .ro, 0, .any⟩]⟩,
  ⟨0x050, 0x4, 4, [⟨31, 0, .ro, 0, .any⟩]⟩,
  ⟨0x060, 0x0, 1, [⟨31, 0, .ro, 0, .any⟩]⟩,
  ⟨0x064, 0x0, 1, [⟨31, 0, .ro, 0, .any⟩]⟩,
  ⟨0x068, 0x0, 1, [⟨31, 0, .ro, 0, .any⟩]⟩,
  ⟨0x06c, 0x0, 1, [⟨31, 16, .ro, 0, .any⟩, ⟨15, 5, .rsv, 0, .any⟩, ⟨4, 0, .ro, 0, .any⟩]⟩,
  ⟨0x070, 0x0, 1, [⟨31, 31, .w1s, 0, .any⟩, ⟨30, 11, .rsv, 0, .any⟩, ⟨10, 5, .rw, 0, (.range 0 47)⟩, ⟨4, 0, .rw, 0, .any⟩]⟩] ++
[
  ⟨0x078, 0x0, 1, [⟨31, 28, .rw, 0, (.range 0 5)⟩, ⟨27, 27, .rw, 0, .any⟩, ⟨26, 12, .rsv, 0, .any⟩, ⟨11, 0, .rw, 0, .any⟩]⟩,
  ⟨0x07c, 0x0, 1, [⟨31, 0, .rw, 0, .any⟩]⟩,
  ⟨0x080, 0x0, 1, [⟨31, 24, .ro, 0, .any⟩, ⟨23, 16, .ro, 0, .any⟩, ⟨15, 8, .ro, 0, .any⟩, ⟨7, 0, .ro, 0, .any⟩]⟩,
  ⟨0x084, 0x0, 1, [⟨31, 16, .ro, 0, .any⟩, ⟨15, 0, .rsv, 0, .any⟩]⟩,
  ⟨0x088, 0x0, 1, [⟨31, 17, .rsv, 0, .any⟩, ⟨16, 0, .ro, 0, .any⟩]⟩,
  ⟨0x090, 0x0, 1, [⟨31, 0, .ro, 0, .any⟩]⟩,
  ⟨0x094, 0x0, 1, [⟨31, 0, .ro, 0, .any⟩]⟩,
  ⟨0x098, 0x0, 1, [⟨31, 24, .rsv, 0, .any⟩, ⟨23, 0, .ro, 0, .any⟩]⟩,
  ⟨0x09c, 0x0, 1, [⟨31, 23, .rsv, 0, .any⟩, ⟨22, 16, .ro, 0, .any⟩, ⟨15, 8, .ro, 0, .any⟩, ⟨7, 0, .ro, 0, .any⟩]⟩]

/-- Registers of the `cnt` page (R597). -/
def cntRegs : List RegRow := [
  ⟨0xf00, 0x4, 8, [⟨31, 31, .rw, 0, .any⟩, ⟨30, 30, .rw, 0, .any⟩, ⟨29, 8, .rsv, 0, .any⟩, ⟨7, 0, .rw, 0, .any⟩]⟩,
  ⟨0xf20, 0x8, 8, [⟨31, 0, .rw, 0, .any⟩]⟩,
  ⟨0xf24, 0x8, 8, [⟨31, 16, .rsv, 0, .any⟩, ⟨15, 0, .rw, 0, .any⟩]⟩,
  ⟨0xf60, 0x8, 8, [⟨31, 0, .ro, 0, .any⟩]⟩,
  ⟨0xf64, 0x8, 8, [⟨31, 16, .rsv, 0, .any⟩, ⟨15, 0, .ro, 0, .any⟩]⟩,
  ⟨0xfa0, 0x0, 1, [⟨31, 8, .rsv, 0, .any⟩, ⟨7, 0, .w1c, 0, .any⟩]⟩,
  ⟨0xfa4, 0x0, 1, [⟨31, 31, .w1c, 0, .any⟩, ⟨30, 25, .rsv, 0, .any⟩, ⟨24, 17, .ro, 0, .any⟩, ⟨16, 0, .ro, 0, .any⟩]⟩]

/-! ### Fields of the `hdr` registers -/

abbrev PG_ID_block_type : Fld := ⟨0x000, 0x0, 31, 16⟩
abbrev PG_ID_instance : Fld := ⟨0x000, 0x0, 15, 8⟩
abbrev PG_ID_page : Fld := ⟨0x000, 0x0, 7, 0⟩
abbrev PG_VER_major : Fld := ⟨0x004, 0x0, 31, 24⟩
abbrev PG_VER_minor : Fld := ⟨0x004, 0x0, 23, 16⟩
abbrev PG_VER_stepping : Fld := ⟨0x004, 0x0, 15, 8⟩
abbrev PG_CAP_first : Fld := ⟨0x008, 0x0, 11, 0⟩
abbrev PG_CTRL_dsleep_en : Fld := ⟨0x00c, 0x0, 4, 4⟩
abbrev PG_CTRL_sleep_en : Fld := ⟨0x00c, 0x0, 3, 3⟩
abbrev PG_CTRL_run_en : Fld := ⟨0x00c, 0x0, 2, 2⟩
abbrev PG_CTRL_soft_reset : Fld := ⟨0x00c, 0x0, 1, 1⟩
abbrev PG_CTRL_enable : Fld := ⟨0x00c, 0x0, 0, 0⟩
abbrev PG_STAT_set_evt : Fld := ⟨0x010, 0x0, 31, 16⟩
abbrev PG_STAT_clk_off : Fld := ⟨0x010, 0x0, 2, 2⟩
abbrev PG_STAT_reset_busy : Fld := ⟨0x010, 0x0, 1, 1⟩
abbrev PG_STAT_ready : Fld := ⟨0x010, 0x0, 0, 0⟩
abbrev PG_IRQ_STAT_err : Fld := ⟨0x014, 0x0, 31, 31⟩
abbrev PG_IRQ_STAT_fault : Fld := ⟨0x014, 0x0, 30, 30⟩
abbrev PG_IRQ_STAT_event : Fld := ⟨0x014, 0x0, 29, 0⟩
abbrev PG_IRQ_EN_mask : Fld := ⟨0x018, 0x0, 31, 0⟩
abbrev PG_IRQ_FORCE_force : Fld := ⟨0x01c, 0x0, 31, 0⟩
abbrev PG_ERR_CNT_clear : Fld := ⟨0x020, 0x0, 31, 31⟩
abbrev PG_ERR_CNT_last_cause : Fld := ⟨0x020, 0x0, 23, 16⟩
abbrev PG_ERR_CNT_count : Fld := ⟨0x020, 0x0, 15, 0⟩
abbrev PG_ERR_ADDR_write : Fld := ⟨0x024, 0x0, 31, 31⟩
abbrev PG_ERR_ADDR_source : Fld := ⟨0x024, 0x0, 30, 30⟩
abbrev PG_ERR_ADDR_offset : Fld := ⟨0x024, 0x0, 25, 0⟩
abbrev PG_LOCK_owner : Fld := ⟨0x028, 0x0, 9, 8⟩
abbrev PG_LOCK_lock : Fld := ⟨0x028, 0x0, 0, 0⟩
abbrev PG_SCRATCH_value : Fld := ⟨0x02c, 0x0, 31, 0⟩

/-! ### Fields of the `dv` registers -/

abbrev DV_SIZE0_cores_per_rink : Fld := ⟨0x100, 0x0, 31, 24⟩
abbrev DV_SIZE0_rinks_per_domain : Fld := ⟨0x100, 0x0, 23, 16⟩
abbrev DV_SIZE0_domains : Fld := ⟨0x100, 0x0, 15, 8⟩
abbrev DV_SIZE0_array_dim : Fld := ⟨0x100, 0x0, 7, 0⟩
abbrev DV_SIZE1_wbuf_kib : Fld := ⟨0x104, 0x0, 31, 16⟩
abbrev DV_SIZE1_abuf_kib : Fld := ⟨0x104, 0x0, 15, 0⟩
abbrev DV_SIZE2_acc_kib : Fld := ⟨0x108, 0x0, 31, 16⟩
abbrev DV_SIZE2_rowbuf_kib : Fld := ⟨0x108, 0x0, 15, 0⟩
abbrev DV_SIZE3_spad_kib : Fld := ⟨0x10c, 0x0, 31, 16⟩
abbrev DV_SIZE3_tcm_kib : Fld := ⟨0x10c, 0x0, 15, 0⟩
abbrev DV_SIZE4_gddr_mib : Fld := ⟨0x110, 0x0, 31, 16⟩
abbrev DV_SIZE4_gddr_channels : Fld := ⟨0x110, 0x0, 15, 8⟩
abbrev DV_SIZE4_stripe_mib : Fld := ⟨0x110, 0x0, 7, 0⟩
abbrev DV_SIZE5_csi_ports : Fld := ⟨0x114, 0x0, 31, 24⟩
abbrev DV_SIZE5_lanes_per_port : Fld := ⟨0x114, 0x0, 23, 16⟩
abbrev DV_SIZE5_vc_per_port : Fld := ⟨0x114, 0x0, 15, 8⟩
abbrev DV_SIZE5_streams : Fld := ⟨0x114, 0x0, 7, 0⟩
abbrev DV_SIZE6_max_line_px : Fld := ⟨0x118, 0x0, 31, 16⟩
abbrev DV_SIZE6_formats : Fld := ⟨0x118, 0x0, 15, 0⟩
abbrev DV_SIZE7_tuzer_ports : Fld := ⟨0x11c, 0x0, 31, 24⟩
abbrev DV_SIZE7_nand_channels : Fld := ⟨0x11c, 0x0, 23, 16⟩
abbrev DV_SIZE7_ce_per_channel : Fld := ⟨0x11c, 0x0, 15, 8⟩
abbrev DV_SIZE7_dma_channels : Fld := ⟨0x11c, 0x0, 7, 0⟩
abbrev DV_SIZE8_dma_slots : Fld := ⟨0x120, 0x0, 31, 24⟩
abbrev DV_SIZE8_encoders : Fld := ⟨0x120, 0x0, 23, 16⟩
abbrev DV_SIZE8_markers : Fld := ⟨0x120, 0x0, 15, 8⟩
abbrev DV_SIZE8_gpio : Fld := ⟨0x120, 0x0, 7, 0⟩
abbrev DV_SIZE9_msix_vectors : Fld := ⟨0x124, 0x0, 31, 16⟩
abbrev DV_SIZE9_rink_mhz : Fld := ⟨0x124, 0x0, 15, 0⟩
abbrev DV_BAD_CNT_clear : Fld := ⟨0x040, 0x0, 31, 31⟩
abbrev DV_BAD_CNT_count : Fld := ⟨0x040, 0x0, 15, 0⟩
abbrev DV_BAD_ADDR_write : Fld := ⟨0x044, 0x0, 31, 31⟩
abbrev DV_BAD_ADDR_source : Fld := ⟨0x044, 0x0, 30, 30⟩
abbrev DV_BAD_ADDR_bar : Fld := ⟨0x044, 0x0, 29, 28⟩
abbrev DV_BAD_ADDR_offset : Fld := ⟨0x044, 0x0, 25, 0⟩
abbrev DV_IRQ_PEND0_pend : Fld := ⟨0x048, 0x0, 31, 0⟩
abbrev DV_IRQ_PEND1_pend : Fld := ⟨0x04c, 0x0, 1, 0⟩
abbrev DV_HALT_code : Fld := ⟨0x050, 0x0, 31, 16⟩
abbrev DV_HALT_ID_pg_id : Fld := ⟨0x054, 0x0, 31, 0⟩
abbrev DV_HALT_TLO_t_lo : Fld := ⟨0x058, 0x0, 31, 0⟩
abbrev DV_HALT_THI_t_hi : Fld := ⟨0x05c, 0x0, 31, 0⟩
abbrev DV_BOOT_stage : Fld := ⟨0x180, 0x0, 31, 28⟩
abbrev DV_BOOT_code : Fld := ⟨0x180, 0x0, 15, 0⟩
abbrev DV_BOOT_MS_ms : Fld := ⟨0x184, 0x0, 31, 0⟩

/-! ### Fields of the `ppMb` registers -/

abbrev PP_MB_STAT_busy : Fld := ⟨0x040, 0x0, 7, 4⟩
abbrev PP_MB_STAT_bound : Fld := ⟨0x040, 0x0, 3, 0⟩
abbrev PP_MB_LOAD_code : Fld := ⟨0x044, 0x0, 31, 16⟩
abbrev PP_MB_LOAD_slot : Fld := ⟨0x044, 0x0, 15, 8⟩
abbrev PP_MB_LOAD_test : Fld := ⟨0x044, 0x0, 7, 0⟩
abbrev PP_MB_PLAN_plan : Fld := ⟨0x048, 0x0, 15, 8⟩
abbrev PP_MB_PLAN_rink : Fld := ⟨0x048, 0x0, 7, 0⟩

/-! ### Fields of the `ppSess` registers -/

abbrev PP_SESS_CTRL_open : Fld := ⟨0x040, 0x0, 31, 31⟩
abbrev PP_SESS_CTRL_prove : Fld := ⟨0x040, 0x0, 30, 30⟩
abbrev PP_SESS_CTRL_close : Fld := ⟨0x040, 0x0, 29, 29⟩
abbrev PP_SESS_CTRL_slot : Fld := ⟨0x040, 0x0, 1, 0⟩
abbrev PP_SESS_REQ_rights : Fld := ⟨0x044, 0x0, 5, 0⟩
abbrev PP_SESS_STAT_state : Fld := ⟨0x048, 0x0, 31, 29⟩
abbrev PP_SESS_STAT_fails : Fld := ⟨0x048, 0x0, 28, 24⟩
abbrev PP_SESS_STAT_rights : Fld := ⟨0x048, 0x0, 5, 0⟩
abbrev PP_SESS_BACKOFF_seconds : Fld := ⟨0x04c, 0x0, 10, 0⟩
abbrev PP_SESS_NONCEk_nd : Fld := ⟨0x060, 0x4, 31, 0⟩
abbrev PP_SESS_RESPk_resp : Fld := ⟨0x080, 0x4, 31, 0⟩
abbrev PP_SESS_SEQ_LO_seq_lo : Fld := ⟨0x0a0, 0x0, 31, 0⟩
abbrev PP_SESS_SEQ_HI_seq_hi : Fld := ⟨0x0a4, 0x0, 31, 0⟩

/-! ### Fields of the `sc` registers -/

abbrev SC_BOOT_STAT_state : Fld := ⟨0x040, 0x0, 31, 28⟩
abbrev SC_BOOT_STAT_untested : Fld := ⟨0x040, 0x0, 27, 27⟩
abbrev SC_BOOT_STAT_recovery : Fld := ⟨0x040, 0x0, 26, 26⟩
abbrev SC_BOOT_STAT_reason : Fld := ⟨0x040, 0x0, 23, 16⟩
abbrev SC_BOOT_STAT_pair_i : Fld := ⟨0x040, 0x0, 15, 12⟩
abbrev SC_BOOT_STAT_pair_j : Fld := ⟨0x040, 0x0, 11, 8⟩
abbrev SC_BOOT_STAT_invalid : Fld := ⟨0x040, 0x0, 7, 0⟩
abbrev SC_BOOT_VERt_img_ver : Fld := ⟨0x044, 0x4, 31, 0⟩
abbrev SC_BOOT_SRC_copy : Fld := ⟨0x054, 0x0, 7, 0⟩
abbrev SC_OWNER_state : Fld := ⟨0x058, 0x0, 5, 0⟩
abbrev SC_POLICY_policy : Fld := ⟨0x05c, 0x0, 31, 0⟩
abbrev SC_LEAF_next : Fld := ⟨0x060, 0x0, 29, 0⟩
abbrev SC_LEAF_RES_end : Fld := ⟨0x064, 0x0, 29, 0⟩
abbrev SC_SCRUB_stripe : Fld := ⟨0x068, 0x0, 16, 16⟩
abbrev SC_SCRUB_rinks : Fld := ⟨0x068, 0x0, 15, 0⟩
abbrev SC_DBG_unlocked : Fld := ⟨0x06c, 0x0, 31, 31⟩
abbrev SC_DBG_session : Fld := ⟨0x06c, 0x0, 30, 28⟩
abbrev SC_DBG_slot : Fld := ⟨0x06c, 0x0, 27, 26⟩
abbrev SC_DBG_rinks : Fld := ⟨0x06c, 0x0, 15, 0⟩
abbrev SC_DBG_END_LO_t_lo : Fld := ⟨0x070, 0x0, 31, 0⟩
abbrev SC_DBG_END_HI_t_hi : Fld := ⟨0x074, 0x0, 31, 0⟩
abbrev SC_DEVIDk_id : Fld := ⟨0x080, 0x4, 31, 0⟩
abbrev SC_VROOTk_hash : Fld := ⟨0x090, 0x4, 31, 0⟩
abbrev SC_OWNHASHs_k_hash : Fld := ⟨0x0b0, 0x4, 31, 0⟩
abbrev SC_IDPUBk_key : Fld := ⟨0x110, 0x4, 31, 0⟩

/-! ### Fields of the `feCommon` registers -/

abbrev FE_TLD_SRC_LO_addr_lo : Fld := ⟨0x040, 0x0, 31, 0⟩
abbrev FE_TLD_SRC_HI_addr_hi : Fld := ⟨0x044, 0x0, 31, 0⟩
abbrev FE_TLD_CTRL_go : Fld := ⟨0x048, 0x0, 31, 31⟩
abbrev FE_TLD_CTRL_src : Fld := ⟨0x048, 0x0, 30, 30⟩
abbrev FE_TLD_CTRL_len : Fld := ⟨0x048, 0x0, 27, 14⟩
abbrev FE_TLD_CTRL_dst : Fld := ⟨0x048, 0x0, 13, 0⟩
abbrev FE_TLD_STAT_err : Fld := ⟨0x04c, 0x0, 1, 1⟩
abbrev FE_TLD_STAT_busy : Fld := ⟨0x04c, 0x0, 0, 0⟩
abbrev FE_TAP_PERMIT_allow : Fld := ⟨0x050, 0x0, 31, 0⟩

/-! ### Fields of the `fePort` registers -/

abbrev FE_PORT_CTRL_lane_map : Fld := ⟨0x040, 0x0, 23, 16⟩
abbrev FE_PORT_CTRL_lane_inv : Fld := ⟨0x040, 0x0, 15, 12⟩
abbrev FE_PORT_CTRL_lanes : Fld := ⟨0x040, 0x0, 3, 2⟩
abbrev FE_PORT_CTRL_deskew_en : Fld := ⟨0x040, 0x0, 1, 1⟩
abbrev FE_PORT_CTRL_rx_en : Fld := ⟨0x040, 0x0, 0, 0⟩
abbrev FE_PORT_RATE_lane_mbps : Fld := ⟨0x044, 0x0, 12, 0⟩
abbrev FE_PORT_STAT_ovf_cnt : Fld := ⟨0x048, 0x0, 31, 16⟩
abbrev FE_PORT_STAT_unmatched_cnt : Fld := ⟨0x048, 0x0, 15, 8⟩
abbrev FE_PORT_STAT_lane_sync : Fld := ⟨0x048, 0x0, 7, 4⟩
abbrev FE_PORT_ERR_crc_cnt : Fld := ⟨0x04c, 0x0, 31, 16⟩
abbrev FE_PORT_ERR_hdr_cnt : Fld := ⟨0x04c, 0x0, 15, 0⟩

/-! ### Fields of the `feStrm` registers -/

abbrev FE_STRM_CTRL_line_idx_src : Fld := ⟨0x040, 0x0, 21, 20⟩
abbrev FE_STRM_CTRL_frame_align : Fld := ⟨0x040, 0x0, 19, 19⟩
abbrev FE_STRM_CTRL_enc_en : Fld := ⟨0x040, 0x0, 18, 18⟩
abbrev FE_STRM_CTRL_enc_sel : Fld := ⟨0x040, 0x0, 17, 16⟩
abbrev FE_STRM_CTRL_pad_mode : Fld := ⟨0x040, 0x0, 15, 14⟩
abbrev FE_STRM_CTRL_dt : Fld := ⟨0x040, 0x0, 13, 8⟩
abbrev FE_STRM_CTRL_vc : Fld := ⟨0x040, 0x0, 7, 4⟩
abbrev FE_STRM_CTRL_port : Fld := ⟨0x040, 0x0, 2, 0⟩
abbrev FE_STRM_GEOM_stripe16 : Fld := ⟨0x044, 0x0, 20, 16⟩
abbrev FE_STRM_GEOM_line_px : Fld := ⟨0x044, 0x0, 14, 0⟩
abbrev FE_STRM_FRAME_frame_lines : Fld := ⟨0x048, 0x0, 15, 0⟩
abbrev FE_STRM_PAD_value : Fld := ⟨0x04c, 0x0, 15, 0⟩
abbrev FE_STRM_STORE_chans : Fld := ⟨0x050, 0x0, 3, 2⟩
abbrev FE_STRM_STORE_sample : Fld := ⟨0x050, 0x0, 1, 0⟩
abbrev FE_STRM_BUF_nbuf : Fld := ⟨0x054, 0x0, 29, 28⟩
abbrev FE_STRM_BUF_base : Fld := ⟨0x054, 0x0, 13, 0⟩
abbrev FE_STRM_BSIZE_size : Fld := ⟨0x058, 0x0, 13, 0⟩
abbrev FE_STRM_LPER_slack_lines : Fld := ⟨0x05c, 0x0, 31, 24⟩
abbrev FE_STRM_LPER_period_ns : Fld := ⟨0x05c, 0x0, 23, 0⟩
abbrev FE_STRM_TOFF_toff_ns : Fld := ⟨0x060, 0x0, 15, 0⟩
abbrev FE_STRM_STAT_cfg_err : Fld := ⟨0x064, 0x0, 31, 28⟩
abbrev FE_STRM_STAT_late_cnt : Fld := ⟨0x064, 0x0, 27, 24⟩
abbrev FE_STRM_STAT_free_bufs : Fld := ⟨0x064, 0x0, 23, 20⟩
abbrev FE_STRM_STAT_lost_cnt : Fld := ⟨0x064, 0x0, 15, 0⟩
abbrev FE_STRM_SEQ_seq : Fld := ⟨0x068, 0x0, 31, 0⟩
abbrev FE_STRM_STAGE_hold : Fld := ⟨0x080, 0x0, 31, 31⟩
abbrev FE_STRM_STAGE_stat_pt : Fld := ⟨0x080, 0x0, 9, 8⟩
abbrev FE_STRM_STAGE_tone_en : Fld := ⟨0x080, 0x0, 7, 7⟩
abbrev FE_STRM_STAGE_ccm_en : Fld := ⟨0x080, 0x0, 6, 6⟩
abbrev FE_STRM_STAGE_wb_en : Fld := ⟨0x080, 0x0, 5, 5⟩
abbrev FE_STRM_STAGE_shade_en : Fld := ⟨0x080, 0x0, 4, 4⟩
abbrev FE_STRM_STAGE_ff_en : Fld := ⟨0x080, 0x0, 3, 3⟩
abbrev FE_STRM_STAGE_dpc_dyn_en : Fld := ⟨0x080, 0x0, 2, 2⟩
abbrev FE_STRM_STAGE_dpc_st_en : Fld := ⟨0x080, 0x0, 1, 1⟩
abbrev FE_STRM_STAGE_bl_en : Fld := ⟨0x080, 0x0, 0, 0⟩
abbrev FE_STRM_PED_pedestal : Fld := ⟨0x084, 0x0, 15, 0⟩
abbrev FE_STRM_BL01_bl1 : Fld := ⟨0x088, 0x0, 31, 16⟩
abbrev FE_STRM_BL01_bl0 : Fld := ⟨0x088, 0x0, 15, 0⟩
abbrev FE_STRM_BL23_bl3 : Fld := ⟨0x08c, 0x0, 31, 16⟩
abbrev FE_STRM_BL23_bl2 : Fld := ⟨0x08c, 0x0, 15, 0⟩
abbrev FE_STRM_DPC_thr_hi : Fld := ⟨0x090, 0x0, 31, 20⟩
abbrev FE_STRM_DPC_thr_lo : Fld := ⟨0x090, 0x0, 19, 8⟩
abbrev FE_STRM_DPC_step : Fld := ⟨0x090, 0x0, 0, 0⟩
abbrev FE_STRM_WB01_wb1 : Fld := ⟨0x094, 0x0, 31, 16⟩
abbrev FE_STRM_WB01_wb0 : Fld := ⟨0x094, 0x0, 15, 0⟩
abbrev FE_STRM_WB23_wb3 : Fld := ⟨0x098, 0x0, 31, 16⟩
abbrev FE_STRM_WB23_wb2 : Fld := ⟨0x098, 0x0, 15, 0⟩
abbrev FE_STRM_CCMk_m_hi : Fld := ⟨0x0a0, 0x4, 31, 16⟩
abbrev FE_STRM_CCMk_m_lo : Fld := ⟨0x0a0, 0x4, 15, 0⟩
abbrev FE_STRM_CCMO01_o1 : Fld := ⟨0x0c0, 0x0, 31, 16⟩
abbrev FE_STRM_CCMO01_o0 : Fld := ⟨0x0c0, 0x0, 15, 0⟩
abbrev FE_STRM_CCMO23_o3 : Fld := ⟨0x0c4, 0x0, 31, 16⟩
abbrev FE_STRM_CCMO23_o2 : Fld := ⟨0x0c4, 0x0, 15, 0⟩
abbrev FE_STRM_TBL_sel : Fld := ⟨0x0d0, 0x0, 28, 28⟩
abbrev FE_STRM_TBL_base_b : Fld := ⟨0x0d0, 0x0, 27, 14⟩
abbrev FE_STRM_TBL_base_a : Fld := ⟨0x0d0, 0x0, 13, 0⟩
abbrev FE_STRM_STATCFG_stat_en : Fld := ⟨0x0e0, 0x0, 31, 31⟩
abbrev FE_STRM_STATCFG_dest : Fld := ⟨0x0e0, 0x0, 30, 30⟩
abbrev FE_STRM_STATCFG_nstripes : Fld := ⟨0x0e0, 0x0, 15, 8⟩
abbrev FE_STRM_STATCFG_depth_log2 : Fld := ⟨0x0e0, 0x0, 3, 0⟩
abbrev FE_STRM_SRING_LO_addr_lo : Fld := ⟨0x0e4, 0x0, 31, 0⟩
abbrev FE_STRM_SRING_HI_addr_hi : Fld := ⟨0x0e8, 0x0, 31, 0⟩
abbrev FE_STRM_SRING_IDX_wr : Fld := ⟨0x0ec, 0x0, 31, 16⟩
abbrev FE_STRM_SRING_IDX_rd : Fld := ⟨0x0ec, 0x0, 15, 0⟩
abbrev FE_STRM_TAP_tap_en : Fld := ⟨0x0f0, 0x0, 31, 31⟩
abbrev FE_STRM_TAP_dest : Fld := ⟨0x0f0, 0x0, 30, 30⟩
abbrev FE_STRM_TAP_point : Fld := ⟨0x0f0, 0x0, 29, 27⟩
abbrev FE_STRM_TAP_fmt : Fld := ⟨0x0f0, 0x0, 26, 25⟩
abbrev FE_STRM_TAP_depth_log2 : Fld := ⟨0x0f0, 0x0, 24, 21⟩
abbrev FE_STRM_TAP_every : Fld := ⟨0x0f0, 0x0, 20, 13⟩
abbrev FE_STRM_TRING_LO_addr_lo : Fld := ⟨0x0f4, 0x0, 31, 0⟩
abbrev FE_STRM_TRING_HI_addr_hi : Fld := ⟨0x0f8, 0x0, 31, 0⟩
abbrev FE_STRM_TRING_IDX_wr : Fld := ⟨0x0fc, 0x0, 31, 16⟩
abbrev FE_STRM_TRING_IDX_rd : Fld := ⟨0x0fc, 0x0, 15, 0⟩
abbrev FE_STRM_SCNT_stat_drop : Fld := ⟨0x100, 0x0, 31, 16⟩
abbrev FE_STRM_SCNT_tap_drop : Fld := ⟨0x100, 0x0, 15, 0⟩

/-! ### Fields of the `feSlm` registers -/

abbrev FE_SLM_CTRL_clr : Fld := ⟨0x040, 0x0, 12, 12⟩
abbrev FE_SLM_CTRL_force : Fld := ⟨0x040, 0x0, 11, 11⟩
abbrev FE_SLM_CTRL_force_plan : Fld := ⟨0x040, 0x0, 10, 8⟩
abbrev FE_SLM_STAT_avail : Fld := ⟨0x044, 0x0, 14, 12⟩
abbrev FE_SLM_STAT_switching : Fld := ⟨0x044, 0x0, 11, 11⟩
abbrev FE_SLM_STAT_plan : Fld := ⟨0x044, 0x0, 10, 8⟩
abbrev FE_SLM_STAT_live : Fld := ⟨0x044, 0x0, 7, 4⟩
abbrev FE_SLM_STAT_job_dom : Fld := ⟨0x044, 0x0, 3, 0⟩
abbrev FE_SLM_SET_set : Fld := ⟨0x048, 0x0, 31, 0⟩
abbrev FE_SLM_TREF_LO_tref_lo : Fld := ⟨0x04c, 0x0, 31, 0⟩
abbrev FE_SLM_TREF_HI_tref_hi : Fld := ⟨0x050, 0x0, 31, 0⟩
abbrev FE_SLM_MISS_missed : Fld := ⟨0x054, 0x0, 31, 16⟩
abbrev FE_SLM_MISS_lost : Fld := ⟨0x054, 0x0, 15, 0⟩
abbrev FE_SLM_RERUN_granted : Fld := ⟨0x058, 0x0, 31, 16⟩
abbrev FE_SLM_RERUN_refused : Fld := ⟨0x058, 0x0, 15, 0⟩
abbrev FE_SLM_DROP_verdicts : Fld := ⟨0x05c, 0x0, 31, 16⟩
abbrev FE_SLM_DROP_crops : Fld := ⟨0x05c, 0x0, 15, 0⟩
abbrev FE_SLM_SLACK_slack : Fld := ⟨0x060, 0x0, 31, 0⟩
abbrev FE_SLM_ADAPT_state : Fld := ⟨0x064, 0x0, 15, 12⟩
abbrev FE_SLM_ADAPT_pend : Fld := ⟨0x064, 0x0, 5, 4⟩
abbrev FE_SLM_ADAPT_bank : Fld := ⟨0x064, 0x0, 1, 0⟩
abbrev FE_SLM_ADSTEP_t : Fld := ⟨0x068, 0x0, 31, 0⟩
abbrev FE_SLM_ADCNT_swaps : Fld := ⟨0x06c, 0x0, 31, 16⟩
abbrev FE_SLM_ADCNT_queued : Fld := ⟨0x06c, 0x0, 12, 0⟩
abbrev FE_SLM_ADERR_qsat : Fld := ⟨0x070, 0x0, 31, 16⟩
abbrev FE_SLM_ADERR_dropped : Fld := ⟨0x070, 0x0, 15, 0⟩
abbrev FE_SLM_ADCAP_written : Fld := ⟨0x074, 0x0, 31, 16⟩
abbrev FE_SLM_ADCAP_dropped : Fld := ⟨0x074, 0x0, 15, 0⟩
abbrev FE_SLM_REPL_mismatches : Fld := ⟨0x078, 0x0, 31, 16⟩
abbrev FE_SLM_REPL_stage : Fld := ⟨0x078, 0x0, 15, 8⟩
abbrev FE_SLM_REPL_recovered : Fld := ⟨0x078, 0x0, 7, 0⟩
abbrev FE_SLM_SPOT_fails : Fld := ⟨0x07c, 0x0, 31, 16⟩
abbrev FE_SLM_SPOT_skipped : Fld := ⟨0x07c, 0x0, 15, 8⟩
abbrev FE_SLM_SPOT_late : Fld := ⟨0x07c, 0x0, 7, 0⟩

/-! ### Fields of the `mxCommon` registers -/

abbrev MX_CFG_ecc_en : Fld := ⟨0x040, 0x0, 0, 0⟩
abbrev MX_STAT_rate_mbps : Fld := ⟨0x044, 0x0, 31, 16⟩
abbrev MX_STAT_init_done : Fld := ⟨0x044, 0x0, 8, 8⟩
abbrev MX_STAT_trained : Fld := ⟨0x044, 0x0, 7, 0⟩
abbrev MX_SCRUB_period_ms : Fld := ⟨0x048, 0x0, 15, 0⟩
abbrev MX_SEAL_STAT_refused : Fld := ⟨0x04c, 0x0, 31, 0⟩
abbrev MX_SEALn_BASE_en : Fld := ⟨0x080, 0x8, 31, 31⟩
abbrev MX_SEALn_BASE_host_clear : Fld := ⟨0x080, 0x8, 30, 30⟩
abbrev MX_SEALn_BASE_base_mib : Fld := ⟨0x080, 0x8, 13, 0⟩
abbrev MX_SEALn_key : Fld := ⟨0x084, 0x8, 19, 16⟩
abbrev MX_SEALn_size_mib : Fld := ⟨0x084, 0x8, 13, 0⟩

/-! ### Fields of the `mxCh` registers -/

abbrev MX_CH_CTRL_retrain : Fld := ⟨0x040, 0x0, 3, 3⟩
abbrev MX_CH_CTRL_edc_retries : Fld := ⟨0x040, 0x0, 2, 0⟩
abbrev MX_CH_STAT_temp_c : Fld := ⟨0x044, 0x0, 31, 16⟩
abbrev MX_CH_STAT_state : Fld := ⟨0x044, 0x0, 1, 0⟩
abbrev MX_CH_ECC_ce : Fld := ⟨0x048, 0x0, 31, 16⟩
abbrev MX_CH_ECC_ue : Fld := ⟨0x048, 0x0, 15, 0⟩
abbrev MX_CH_ECC_ADDR_block : Fld := ⟨0x04c, 0x0, 31, 0⟩
abbrev MX_CH_EDC_retries : Fld := ⟨0x050, 0x0, 31, 16⟩
abbrev MX_CH_EDC_fails : Fld := ⟨0x050, 0x0, 15, 0⟩

/-! ### Fields of the `nsCommon` registers -/

abbrev NS_STAT_state : Fld := ⟨0x040, 0x0, 31, 28⟩
abbrev NS_STAT_meta_ok : Fld := ⟨0x040, 0x0, 1, 0⟩
abbrev NS_CFG_spare_pct : Fld := ⟨0x044, 0x0, 31, 24⟩
abbrev NS_CFG_scan_days : Fld := ⟨0x044, 0x0, 23, 16⟩
abbrev NS_CFG_weak_bits : Fld := ⟨0x044, 0x0, 7, 0⟩
abbrev NS_STG_BASE_base : Fld := ⟨0x048, 0x0, 27, 0⟩
abbrev NS_STG_SIZE_crop_mib : Fld := ⟨0x04c, 0x0, 31, 16⟩
abbrev NS_STG_SIZE_xfer_mib : Fld := ⟨0x04c, 0x0, 15, 0⟩
abbrev NS_ARC_OLD_LO_rec_lo : Fld := ⟨0x050, 0x0, 31, 0⟩
abbrev NS_ARC_OLD_HI_rec_hi : Fld := ⟨0x054, 0x0, 31, 0⟩
abbrev NS_ARC_NEW_LO_rec_lo : Fld := ⟨0x058, 0x0, 31, 0⟩
abbrev NS_ARC_NEW_HI_rec_hi : Fld := ⟨0x05c, 0x0, 31, 0⟩
abbrev NS_ARC_STAT_dropped : Fld := ⟨0x060, 0x0, 31, 16⟩
abbrev NS_ARC_STAT_queued : Fld := ⟨0x060, 0x0, 15, 0⟩
abbrev NS_BAD_grown : Fld := ⟨0x064, 0x0, 31, 16⟩
abbrev NS_BAD_factory : Fld := ⟨0x064, 0x0, 15, 0⟩
abbrev NS_WEAR_max_erase : Fld := ⟨0x068, 0x0, 31, 16⟩
abbrev NS_WEAR_min_erase : Fld := ⟨0x068, 0x0, 15, 0⟩

/-! ### Fields of the `nsCh` registers -/

abbrev NS_CH_STAT_iface : Fld := ⟨0x040, 0x0, 31, 28⟩
abbrev NS_CH_STAT_mts : Fld := ⟨0x040, 0x0, 27, 16⟩
abbrev NS_CH_STAT_ce : Fld := ⟨0x040, 0x0, 3, 0⟩
abbrev NS_CH_ERR_retries : Fld := ⟨0x044, 0x0, 31, 16⟩
abbrev NS_CH_ERR_ue : Fld := ⟨0x044, 0x0, 15, 0⟩
abbrev NS_CH_ECC_weak : Fld := ⟨0x048, 0x0, 31, 16⟩
abbrev NS_CH_ECC_max_bits : Fld := ⟨0x048, 0x0, 15, 0⟩
abbrev NS_CH_REFRESH_blocks : Fld := ⟨0x04c, 0x0, 31, 0⟩

/-! ### Fields of the `pxCommon` registers -/

abbrev PX_LINK_gen : Fld := ⟨0x040, 0x0, 15, 12⟩
abbrev PX_LINK_width : Fld := ⟨0x040, 0x0, 7, 0⟩
abbrev PX_BAR2_win : Fld := ⟨0x044, 0x0, 5, 0⟩
abbrev PX_STAT_verdicts : Fld := ⟨0x048, 0x0, 31, 16⟩
abbrev PX_STAT_faults : Fld := ⟨0x048, 0x0, 15, 0⟩

/-! ### Fields of the `pxFault` registers -/

abbrev PX_FLT_BASE_LO_addr_lo : Fld := ⟨0x040, 0x0, 31, 0⟩
abbrev PX_FLT_BASE_HI_addr_hi : Fld := ⟨0x044, 0x0, 31, 0⟩
abbrev PX_FLT_CFG_en : Fld := ⟨0x048, 0x0, 31, 31⟩
abbrev PX_FLT_CFG_depth_log2 : Fld := ⟨0x048, 0x0, 3, 0⟩
abbrev PX_FLT_IDX_wr : Fld := ⟨0x04c, 0x0, 31, 16⟩
abbrev PX_FLT_IDX_rd : Fld := ⟨0x04c, 0x0, 15, 0⟩
abbrev PX_FLT_DROP_count : Fld := ⟨0x050, 0x0, 31, 0⟩

/-! ### Fields of the `pxCmd` registers -/

abbrev PX_SQ_BASE_LO_addr_lo : Fld := ⟨0x040, 0x0, 31, 0⟩
abbrev PX_SQ_BASE_HI_addr_hi : Fld := ⟨0x044, 0x0, 31, 0⟩
abbrev PX_CQ_BASE_LO_addr_lo : Fld := ⟨0x048, 0x0, 31, 0⟩
abbrev PX_CQ_BASE_HI_addr_hi : Fld := ⟨0x04c, 0x0, 31, 0⟩
abbrev PX_CR_CFG_en : Fld := ⟨0x050, 0x0, 31, 31⟩
abbrev PX_CR_CFG_cq_log2 : Fld := ⟨0x050, 0x0, 7, 4⟩
abbrev PX_CR_CFG_sq_log2 : Fld := ⟨0x050, 0x0, 3, 0⟩
abbrev PX_SQ_TAIL_tail : Fld := ⟨0x054, 0x0, 15, 0⟩
abbrev PX_SQ_HEAD_head : Fld := ⟨0x058, 0x0, 15, 0⟩
abbrev PX_CQ_TAIL_tail : Fld := ⟨0x05c, 0x0, 15, 0⟩
abbrev PX_CQ_HEAD_head : Fld := ⟨0x060, 0x0, 15, 0⟩

/-! ### Fields of the `pxVr` registers -/

abbrev PX_VR_BASE_LO_addr_lo : Fld := ⟨0x040, 0x0, 31, 0⟩
abbrev PX_VR_BASE_HI_addr_hi : Fld := ⟨0x044, 0x0, 31, 0⟩
abbrev PX_VR_CFG_en : Fld := ⟨0x048, 0x0, 31, 31⟩
abbrev PX_VR_CFG_trailer : Fld := ⟨0x048, 0x0, 30, 30⟩
abbrev PX_VR_CFG_irq_en : Fld := ⟨0x048, 0x0, 29, 29⟩
abbrev PX_VR_CFG_depth_log2 : Fld := ⟨0x048, 0x0, 3, 0⟩
abbrev PX_VR_WR_blk_wr : Fld := ⟨0x04c, 0x0, 31, 0⟩
abbrev PX_VR_RD_blk_rd : Fld := ⟨0x050, 0x0, 31, 0⟩
abbrev PX_VR_DROP_count : Fld := ⟨0x054, 0x0, 31, 0⟩

/-! ### Fields of the `tzCommon` registers -/

abbrev TZ_CFG_node : Fld := ⟨0x040, 0x0, 1, 0⟩
abbrev TZ_NODES_route : Fld := ⟨0x044, 0x0, 15, 8⟩
abbrev TZ_NODES_live : Fld := ⟨0x044, 0x0, 3, 0⟩

/-! ### Fields of the `tzPort` registers -/

abbrev TZ_PORT_CTRL_retrain : Fld := ⟨0x040, 0x0, 1, 1⟩
abbrev TZ_PORT_CTRL_en : Fld := ⟨0x040, 0x0, 0, 0⟩
abbrev TZ_PORT_STAT_state : Fld := ⟨0x044, 0x0, 31, 29⟩
abbrev TZ_PORT_STAT_peer : Fld := ⟨0x044, 0x0, 25, 24⟩
abbrev TZ_PORT_STAT_lanes_ok : Fld := ⟨0x044, 0x0, 3, 0⟩
abbrev TZ_PORT_ERR_crc : Fld := ⟨0x048, 0x0, 31, 16⟩
abbrev TZ_PORT_ERR_replays : Fld := ⟨0x048, 0x0, 15, 8⟩
abbrev TZ_PORT_ERR_bad_pkt : Fld := ⟨0x048, 0x0, 7, 0⟩
abbrev TZ_PORT_TRAIN_retrains : Fld := ⟨0x04c, 0x0, 31, 16⟩
abbrev TZ_PORT_TRAIN_fails : Fld := ⟨0x04c, 0x0, 15, 0⟩

/-! ### Fields of the `cl` registers -/

abbrev CL_CFG_fahead : Fld := ⟨0x040, 0x0, 2, 0⟩
abbrev CL_STAT_waiting : Fld := ⟨0x044, 0x0, 15, 8⟩
abbrev CL_STAT_outstanding : Fld := ⟨0x044, 0x0, 2, 0⟩
abbrev CL_SEM_wt_free : Fld := ⟨0x048, 0x0, 15, 12⟩
abbrev CL_SEM_wt_filled : Fld := ⟨0x048, 0x0, 11, 8⟩
abbrev CL_SEM_act_free : Fld := ⟨0x048, 0x0, 7, 4⟩
abbrev CL_SEM_act_filled : Fld := ⟨0x048, 0x0, 3, 0⟩
abbrev CL_DISC_T_tiles : Fld := ⟨0x04c, 0x0, 31, 0⟩
abbrev CL_DISC_B_bytes : Fld := ⟨0x050, 0x0, 31, 0⟩
abbrev CL_WDRAW_cells : Fld := ⟨0x054, 0x0, 31, 16⟩
abbrev CL_WDRAW_copies : Fld := ⟨0x054, 0x0, 15, 0⟩
abbrev CL_XFER_count : Fld := ⟨0x058, 0x0, 31, 0⟩
abbrev CL_T2SEMc_sems : Fld := ⟨0x080, 0x4, 15, 0⟩

/-! ### Fields of the `gd` registers -/

abbrev GD_CTRL_lag_limit : Fld := ⟨0x040, 0x0, 31, 16⟩
abbrev GD_CTRL_en : Fld := ⟨0x040, 0x0, 0, 0⟩
abbrev GD_STAT_detaches : Fld := ⟨0x044, 0x0, 31, 16⟩
abbrev GD_STAT_runs : Fld := ⟨0x044, 0x0, 15, 0⟩
abbrev GD_ACTIVE_group : Fld := ⟨0x048, 0x0, 15, 0⟩
abbrev GD_IDX_auto_inc : Fld := ⟨0x04c, 0x0, 8, 8⟩
abbrev GD_IDX_group : Fld := ⟨0x04c, 0x0, 7, 4⟩
abbrev GD_IDX_word : Fld := ⟨0x04c, 0x0, 3, 0⟩
abbrev GD_DATA_data : Fld := ⟨0x050, 0x0, 31, 0⟩

/-! ### Fields of the `dmCommon` registers -/

abbrev DM_BUSY_busy : Fld := ⟨0x040, 0x0, 15, 0⟩
abbrev DM_BAD_count : Fld := ⟨0x044, 0x0, 31, 0⟩

/-! ### Fields of the `dmCh` registers -/

abbrev DM_CH_CTRL_go : Fld := ⟨0x040, 0x0, 31, 31⟩
abbrev DM_CH_CTRL_abort : Fld := ⟨0x040, 0x0, 30, 30⟩
abbrev DM_CH_CTRL_wrap : Fld := ⟨0x040, 0x0, 29, 29⟩
abbrev DM_CH_CTRL_head : Fld := ⟨0x040, 0x0, 2, 0⟩
abbrev DM_CH_STAT_busy : Fld := ⟨0x044, 0x0, 31, 31⟩
abbrev DM_CH_STAT_waiting : Fld := ⟨0x044, 0x0, 30, 30⟩
abbrev DM_CH_STAT_slot : Fld := ⟨0x044, 0x0, 2, 0⟩
abbrev DM_SLOTn_SRC_LO_addr_lo : Fld := ⟨0x080, 0x20, 31, 0⟩
abbrev DM_SLOTn_SRC_HI_addr_hi : Fld := ⟨0x084, 0x20, 31, 0⟩
abbrev DM_SLOTn_DST_LO_addr_lo : Fld := ⟨0x088, 0x20, 31, 0⟩
abbrev DM_SLOTn_DST_HI_addr_hi : Fld := ⟨0x08c, 0x20, 31, 0⟩
abbrev DM_SLOTn_CNT_count : Fld := ⟨0x090, 0x20, 31, 0⟩
abbrev DM_SLOTn_CTRL_state : Fld := ⟨0x094, 0x20, 31, 30⟩
abbrev DM_SLOTn_CTRL_cause : Fld := ⟨0x094, 0x20, 29, 27⟩
abbrev DM_SLOTn_CTRL_irq_en : Fld := ⟨0x094, 0x20, 26, 26⟩
abbrev DM_SLOTn_CTRL_src_space : Fld := ⟨0x094, 0x20, 25, 24⟩
abbrev DM_SLOTn_CTRL_dst_space : Fld := ⟨0x094, 0x20, 23, 22⟩
abbrev DM_SLOTn_CTRL_trig_en : Fld := ⟨0x094, 0x20, 21, 21⟩
abbrev DM_SLOTn_CTRL_trig_win : Fld := ⟨0x094, 0x20, 20, 13⟩
abbrev DM_SLOTn_TRIG_target : Fld := ⟨0x098, 0x20, 31, 0⟩
abbrev DM_SLOTn_DONE_bytes : Fld := ⟨0x09c, 0x20, 31, 0⟩

/-! ### Fields of the `wn` registers -/

abbrev WN_STAT_nowin : Fld := ⟨0x040, 0x0, 31, 16⟩
abbrev WN_ERR_valid : Fld := ⟨0x044, 0x0, 31, 31⟩
abbrev WN_ERR_reason : Fld := ⟨0x044, 0x0, 10, 8⟩
abbrev WN_ERR_window : Fld := ⟨0x044, 0x0, 7, 0⟩
abbrev WN_PENDk_pend : Fld := ⟨0x080, 0x4, 31, 0⟩

/-! ### Fields of the `wnTab` registers -/

abbrev WN_CTRL_state : Fld := ⟨0x800, 0x20, 31, 30⟩
abbrev WN_CTRL_open : Fld := ⟨0x800, 0x20, 29, 29⟩
abbrev WN_CTRL_owner : Fld := ⟨0x800, 0x20, 28, 28⟩
abbrev WN_CTRL_kind : Fld := ⟨0x800, 0x20, 27, 27⟩
abbrev WN_CTRL_target : Fld := ⟨0x800, 0x20, 26, 26⟩
abbrev WN_CTRL_rink : Fld := ⟨0x800, 0x20, 25, 22⟩
abbrev WN_CTRL_nodes : Fld := ⟨0x800, 0x20, 21, 18⟩
abbrev WN_BASE_base : Fld := ⟨0x804, 0x20, 31, 0⟩
abbrev WN_SIZE_size : Fld := ⟨0x808, 0x20, 27, 0⟩
abbrev WN_ARR_count : Fld := ⟨0x80c, 0x20, 31, 0⟩
abbrev WN_TARGET_target : Fld := ⟨0x810, 0x20, 31, 0⟩
abbrev WN_DROP_closed : Fld := ⟨0x814, 0x20, 31, 16⟩
abbrev WN_DROP_range : Fld := ⟨0x814, 0x20, 15, 0⟩

/-! ### Fields of the `tb` registers -/

abbrev TB_CTRL_step_en : Fld := ⟨0x040, 0x0, 2, 2⟩
abbrev TB_CTRL_pps_fall : Fld := ⟨0x040, 0x0, 1, 1⟩
abbrev TB_CTRL_pps_en : Fld := ⟨0x040, 0x0, 0, 0⟩
abbrev TB_NOW_FRAC_frac : Fld := ⟨0x044, 0x0, 15, 0⟩
abbrev TB_NOW_LO_ns_lo : Fld := ⟨0x048, 0x0, 31, 0⟩
abbrev TB_NOW_HI_ns_hi : Fld := ⟨0x04c, 0x0, 31, 0⟩
abbrev TB_SET_LO_ns_lo : Fld := ⟨0x050, 0x0, 31, 0⟩
abbrev TB_SET_HI_ns_hi : Fld := ⟨0x054, 0x0, 31, 0⟩
abbrev TB_INC_LO_frac : Fld := ⟨0x058, 0x0, 31, 0⟩
abbrev TB_INC_HI_ns : Fld := ⟨0x05c, 0x0, 7, 0⟩
abbrev TB_SERVO_kp : Fld := ⟨0x060, 0x0, 31, 28⟩
abbrev TB_SERVO_ki : Fld := ⟨0x060, 0x0, 27, 24⟩
abbrev TB_SERVO_max_ppm : Fld := ⟨0x060, 0x0, 9, 0⟩
abbrev TB_LOCK_lock_ns : Fld := ⟨0x064, 0x0, 31, 16⟩
abbrev TB_LOCK_step_us : Fld := ⟨0x064, 0x0, 15, 0⟩
abbrev TB_PPS_OFF_ns : Fld := ⟨0x068, 0x0, 31, 0⟩
abbrev TB_PHASE_e : Fld := ⟨0x06c, 0x0, 31, 0⟩
abbrev TB_FREQ_y : Fld := ⟨0x070, 0x0, 31, 0⟩
abbrev TB_DRIFT_drift : Fld := ⟨0x074, 0x0, 31, 0⟩
abbrev TB_STAT_state : Fld := ⟨0x078, 0x0, 31, 28⟩
abbrev TB_STAT_rejected : Fld := ⟨0x078, 0x0, 15, 0⟩
abbrev TB_HOLD_seconds : Fld := ⟨0x07c, 0x0, 31, 0⟩
abbrev TB_ENCn_CFG_filt : Fld := ⟨0x080, 0x10, 5, 3⟩
abbrev TB_ENCn_CFG_rev : Fld := ⟨0x080, 0x10, 2, 2⟩
abbrev TB_ENCn_CFG_en : Fld := ⟨0x080, 0x10, 0, 0⟩
abbrev TB_ENCn_POS_pos : Fld := ⟨0x084, 0x10, 31, 0⟩
abbrev TB_ENCn_ERR_count : Fld := ⟨0x088, 0x10, 31, 0⟩
abbrev TB_MKm_CFG_en : Fld := ⟨0x100, 0x20, 31, 31⟩
abbrev TB_MKm_CFG_active_high : Fld := ⟨0x100, 0x20, 30, 30⟩
abbrev TB_MKm_CFG_rev : Fld := ⟨0x100, 0x20, 29, 29⟩
abbrev TB_MKm_CFG_enc_sel : Fld := ⟨0x100, 0x20, 28, 27⟩
abbrev TB_MKm_CFG_width_us : Fld := ⟨0x100, 0x20, 15, 0⟩
abbrev TB_MKm_LATE_late_us : Fld := ⟨0x104, 0x20, 31, 16⟩
abbrev TB_MKm_LATE_late_cnt : Fld := ⟨0x104, 0x20, 15, 0⟩
abbrev TB_MKm_TGT_LO_tgt_lo : Fld := ⟨0x108, 0x20, 31, 0⟩
abbrev TB_MKm_TGT_HI_tgt_hi : Fld := ⟨0x10c, 0x20, 31, 0⟩
abbrev TB_MKm_ARM_go : Fld := ⟨0x110, 0x20, 31, 31⟩
abbrev TB_MKm_ARM_mode : Fld := ⟨0x110, 0x20, 30, 30⟩
abbrev TB_MKm_STAT_pending : Fld := ⟨0x114, 0x20, 31, 24⟩
abbrev TB_MKm_STAT_dropped : Fld := ⟨0x114, 0x20, 23, 16⟩
abbrev TB_MKm_STAT_late : Fld := ⟨0x114, 0x20, 15, 8⟩
abbrev TB_MKm_STAT_merged : Fld := ⟨0x114, 0x20, 7, 0⟩
abbrev TB_MKm_CNT_pulses : Fld := ⟨0x118, 0x20, 31, 0⟩
abbrev TB_GPIO_OE_oe : Fld := ⟨0x300, 0x0, 15, 0⟩
abbrev TB_GPIO_OUT_out : Fld := ⟨0x304, 0x0, 15, 0⟩
abbrev TB_GPIO_IN_in : Fld := ⟨0x308, 0x0, 15, 0⟩
abbrev TB_GPIO_EDGE_fall_en : Fld := ⟨0x30c, 0x0, 31, 16⟩
abbrev TB_GPIO_EDGE_rise_en : Fld := ⟨0x30c, 0x0, 15, 0⟩
abbrev TB_GPIOp_TS_LO_ns_lo : Fld := ⟨0x320, 0x8, 31, 0⟩
abbrev TB_GPIOp_TS_HI_ns_hi : Fld := ⟨0x324, 0x8, 31, 0⟩

/-! ### Fields of the `ck` registers -/

abbrev CK_RUN0_en : Fld := ⟨0x040, 0x0, 31, 0⟩
abbrev CK_RUN1_en : Fld := ⟨0x044, 0x0, 27, 0⟩
abbrev CK_SLEEP0_en : Fld := ⟨0x048, 0x0, 31, 0⟩
abbrev CK_SLEEP1_en : Fld := ⟨0x04c, 0x0, 27, 0⟩
abbrev CK_DSLEEP0_en : Fld := ⟨0x050, 0x0, 31, 0⟩
abbrev CK_DSLEEP1_en : Fld := ⟨0x054, 0x0, 27, 0⟩
abbrev CK_LOCK_locked : Fld := ⟨0x058, 0x0, 31, 0⟩
abbrev CK_UNLOCK_lost : Fld := ⟨0x05c, 0x0, 31, 0⟩
abbrev CK_CLKOUT_en : Fld := ⟨0x060, 0x0, 31, 31⟩
abbrev CK_CLKOUT_stalled : Fld := ⟨0x060, 0x0, 30, 30⟩
abbrev CK_CLKOUT_sel : Fld := ⟨0x060, 0x0, 21, 16⟩
abbrev CK_CLKOUT_div_m1 : Fld := ⟨0x060, 0x0, 11, 0⟩
abbrev CK_RINK_mhz : Fld := ⟨0x064, 0x0, 31, 16⟩
abbrev CK_RINK_level : Fld := ⟨0x064, 0x0, 2, 0⟩

/-! ### Fields of the `pw` registers -/

abbrev PW_DOM_CTRLd_fence : Fld := ⟨0x200, 0x20, 31, 31⟩
abbrev PW_DOM_CTRLd_reset : Fld := ⟨0x200, 0x20, 30, 30⟩
abbrev PW_DOM_CTRLd_auto_reset : Fld := ⟨0x200, 0x20, 29, 29⟩
abbrev PW_DOM_CTRLd_reset_max : Fld := ⟨0x200, 0x20, 23, 16⟩
abbrev PW_DOM_CTRLd_rail_wait_us : Fld := ⟨0x200, 0x20, 15, 0⟩
abbrev PW_DOM_STATd_resets : Fld := ⟨0x204, 0x20, 31, 24⟩
abbrev PW_DOM_STATd_last_code : Fld := ⟨0x204, 0x20, 23, 8⟩
abbrev PW_DOM_STATd_state : Fld := ⟨0x204, 0x20, 1, 0⟩
abbrev PW_DOM_THRd_window_ms : Fld := ⟨0x208, 0x20, 31, 16⟩
abbrev PW_DOM_THRd_limit : Fld := ⟨0x208, 0x20, 15, 0⟩
abbrev PW_DOM_CNTd_events : Fld := ⟨0x20c, 0x20, 31, 16⟩
abbrev PW_DOM_CNTd_fences : Fld := ⟨0x20c, 0x20, 15, 0⟩
abbrev PW_DOM_TLOd_t_lo : Fld := ⟨0x210, 0x20, 31, 0⟩
abbrev PW_DOM_THId_t_hi : Fld := ⟨0x214, 0x20, 31, 0⟩
abbrev PW_SHARED_corrected : Fld := ⟨0x280, 0x0, 31, 16⟩
abbrev PW_SHARED_dropped : Fld := ⟨0x280, 0x0, 15, 0⟩
abbrev PW_PS_REQ_state : Fld := ⟨0x040, 0x0, 2, 0⟩
abbrev PW_PS_STAT_refuse : Fld := ⟨0x044, 0x0, 31, 28⟩
abbrev PW_PS_STAT_target : Fld := ⟨0x044, 0x0, 6, 4⟩
abbrev PW_PS_STAT_state : Fld := ⟨0x044, 0x0, 2, 0⟩
abbrev PW_WAKE_alarm : Fld := ⟨0x048, 0x0, 17, 17⟩
abbrev PW_WAKE_host : Fld := ⟨0x048, 0x0, 16, 16⟩
abbrev PW_WAKE_gpio : Fld := ⟨0x048, 0x0, 15, 0⟩
abbrev PW_WAKE_SRC_src : Fld := ⟨0x04c, 0x0, 17, 0⟩
abbrev PW_ALARM_LO_ns_lo : Fld := ⟨0x050, 0x0, 31, 0⟩
abbrev PW_ALARM_HI_ns_hi : Fld := ⟨0x054, 0x0, 31, 0⟩
abbrev PW_THERM_throttle_en : Fld := ⟨0x058, 0x0, 31, 31⟩
abbrev PW_THERM_max_level : Fld := ⟨0x058, 0x0, 26, 24⟩
abbrev PW_THERM_thr_c : Fld := ⟨0x058, 0x0, 23, 16⟩
abbrev PW_THERM_hyst_c : Fld := ⟨0x058, 0x0, 15, 8⟩
abbrev PW_THERM_trip_c : Fld := ⟨0x058, 0x0, 7, 0⟩
abbrev PW_THERM_STAT_hot : Fld := ⟨0x05c, 0x0, 31, 16⟩
abbrev PW_THERM_STAT_sensor : Fld := ⟨0x05c, 0x0, 15, 8⟩
abbrev PW_THERM_STAT_steps : Fld := ⟨0x05c, 0x0, 7, 0⟩
abbrev PW_PS_CNT_entries : Fld := ⟨0x060, 0x0, 31, 16⟩
abbrev PW_PS_CNT_refused : Fld := ⟨0x060, 0x0, 15, 0⟩

/-! ### Fields of the `wx` registers -/

abbrev WX_CTRL_run : Fld := ⟨0x040, 0x0, 31, 31⟩
abbrev WX_CTRL_period_min : Fld := ⟨0x040, 0x0, 15, 8⟩
abbrev WX_CTRL_thr_c : Fld := ⟨0x040, 0x0, 7, 0⟩
abbrev WX_STAT_running : Fld := ⟨0x044, 0x0, 31, 31⟩
abbrev WX_STAT_at_limit : Fld := ⟨0x044, 0x0, 30, 30⟩
abbrev WX_STAT_cal_missing : Fld := ⟨0x044, 0x0, 29, 29⟩
abbrev WX_STAT_pending : Fld := ⟨0x044, 0x0, 19, 16⟩
abbrev WX_STAT_runs : Fld := ⟨0x044, 0x0, 15, 0⟩
abbrev WX_LAST_LO_t_lo : Fld := ⟨0x048, 0x0, 31, 0⟩
abbrev WX_LAST_HI_t_hi : Fld := ⟨0x04c, 0x0, 31, 0⟩
abbrev WX_LAST_TJ_tj : Fld := ⟨0x050, 0x0, 15, 0⟩
abbrev WX_CRC_crc : Fld := ⟨0x054, 0x0, 31, 0⟩
abbrev WX_IDX_table : Fld := ⟨0x058, 0x0, 10, 8⟩
abbrev WX_IDX_index : Fld := ⟨0x058, 0x0, 7, 0⟩
abbrev WX_DATA_code : Fld := ⟨0x05c, 0x0, 7, 0⟩
abbrev WX_MONk_stale : Fld := ⟨0x100, 0x4, 31, 31⟩
abbrev WX_MONk_value : Fld := ⟨0x100, 0x4, 15, 0⟩

/-! ### Fields of the `pc` registers -/

abbrev PC_CTRL_freeze : Fld := ⟨0x040, 0x0, 31, 31⟩
abbrev PC_CTRL_thaw : Fld := ⟨0x040, 0x0, 30, 30⟩
abbrev PC_CTRL_snap : Fld := ⟨0x040, 0x0, 29, 29⟩
abbrev PC_CTRL_collect : Fld := ⟨0x040, 0x0, 28, 28⟩
abbrev PC_CTRL_dest : Fld := ⟨0x040, 0x0, 27, 27⟩
abbrev PC_CTRL_frozen : Fld := ⟨0x040, 0x0, 26, 26⟩
abbrev PC_CTRL_busy : Fld := ⟨0x040, 0x0, 25, 25⟩
abbrev PC_CTRL_host_read : Fld := ⟨0x040, 0x0, 24, 24⟩
abbrev PC_CTRL_trig_code : Fld := ⟨0x040, 0x0, 15, 0⟩
abbrev PC_DST_LO_addr_lo : Fld := ⟨0x044, 0x0, 31, 0⟩
abbrev PC_DST_HI_addr_hi : Fld := ⟨0x048, 0x0, 31, 0⟩
abbrev PC_FRZ_LO_t_lo : Fld := ⟨0x04c, 0x0, 31, 0⟩
abbrev PC_FRZ_HI_t_hi : Fld := ⟨0x050, 0x0, 31, 0⟩
abbrev PC_BW_CFGk_en : Fld := ⟨0x080, 0x10, 31, 31⟩
abbrev PC_BW_CFGk_port : Fld := ⟨0x080, 0x10, 30, 24⟩
abbrev PC_BW_CFGk_window_us : Fld := ⟨0x080, 0x10, 19, 0⟩
abbrev PC_BW_LASTk_units : Fld := ⟨0x084, 0x10, 31, 0⟩
abbrev PC_BW_PEAKk_units : Fld := ⟨0x088, 0x10, 31, 0⟩
abbrev PC_BW_CNTk_windows : Fld := ⟨0x08c, 0x10, 31, 0⟩

/-! ### Fields of the `rk` registers -/

abbrev RK_PROG_base : Fld := ⟨0x040, 0x0, 16, 0⟩
abbrev RK_STATE_cells : Fld := ⟨0x044, 0x0, 31, 16⟩
abbrev RK_STATE_group : Fld := ⟨0x044, 0x0, 15, 12⟩
abbrev RK_STATE_state : Fld := ⟨0x044, 0x0, 2, 0⟩
abbrev RK_SRC_core_cl : Fld := ⟨0x048, 0x0, 17, 10⟩
abbrev RK_SRC_rink_cl : Fld := ⟨0x048, 0x0, 9, 9⟩
abbrev RK_SRC_core : Fld := ⟨0x048, 0x0, 8, 1⟩
abbrev RK_SRC_rink : Fld := ⟨0x048, 0x0, 0, 0⟩
abbrev RK_CELLQ_used : Fld := ⟨0x04c, 0x0, 20, 16⟩
abbrev RK_CELLQ_head_pos : Fld := ⟨0x04c, 0x0, 12, 0⟩
abbrev RK_HALO_STAT_timeouts : Fld := ⟨0x050, 0x0, 31, 16⟩
abbrev RK_HALO_STAT_late : Fld := ⟨0x050, 0x0, 15, 0⟩
abbrev RK_CARRY_STAT_fills : Fld := ⟨0x054, 0x0, 31, 16⟩
abbrev RK_CARRY_STAT_restores : Fld := ⟨0x054, 0x0, 15, 0⟩
abbrev RK_SEM_FAULT_valid : Fld := ⟨0x058, 0x0, 7, 7⟩
abbrev RK_SEM_FAULT_sem : Fld := ⟨0x058, 0x0, 5, 0⟩
abbrev RK_REPLICA_en : Fld := ⟨0x05c, 0x0, 31, 31⟩
abbrev RK_REPLICA_partner : Fld := ⟨0x05c, 0x0, 3, 0⟩
abbrev RK_SPAD_ECC_ce : Fld := ⟨0x060, 0x0, 31, 16⟩
abbrev RK_SEMn_limit : Fld := ⟨0x100, 0x4, 15, 8⟩
abbrev RK_SEMn_count : Fld := ⟨0x100, 0x4, 7, 0⟩

/-! ### Fields of the `cr` registers -/

abbrev CR_SEQ_CTRL_start_pc : Fld := ⟨0x040, 0x0, 15, 8⟩
abbrev CR_SEQ_CTRL_clr_cnt : Fld := ⟨0x040, 0x0, 2, 2⟩
abbrev CR_SEQ_CTRL_step : Fld := ⟨0x040, 0x0, 1, 1⟩
abbrev CR_SEQ_CTRL_run : Fld := ⟨0x040, 0x0, 0, 0⟩
abbrev CR_SEQ_STAT_pc : Fld := ⟨0x044, 0x0, 31, 24⟩
abbrev CR_SEQ_STAT_wait_sem : Fld := ⟨0x044, 0x0, 23, 18⟩
abbrev CR_SEQ_STAT_waiting : Fld := ⟨0x044, 0x0, 17, 17⟩
abbrev CR_SEQ_STAT_halted : Fld := ⟨0x044, 0x0, 16, 16⟩
abbrev CR_SEQ_STAT_busy : Fld := ⟨0x044, 0x0, 4, 0⟩
abbrev CR_OP_CUR_valid : Fld := ⟨0x048, 0x0, 31, 31⟩
abbrev CR_OP_CUR_desc : Fld := ⟨0x048, 0x0, 16, 0⟩
abbrev CR_OP_DRAIN_valid : Fld := ⟨0x04c, 0x0, 31, 31⟩
abbrev CR_OP_DRAIN_desc : Fld := ⟨0x04c, 0x0, 16, 0⟩
abbrev CR_ACC_STATEk_state : Fld := ⟨0x050, 0x4, 31, 0⟩
abbrev CR_CNT_SAT_count : Fld := ⟨0x060, 0x0, 31, 0⟩
abbrev CR_CNT_FLUSH_count : Fld := ⟨0x064, 0x0, 31, 0⟩
abbrev CR_CNT_NONFIN_count : Fld := ⟨0x068, 0x0, 31, 0⟩
abbrev CR_RES_STAT_mismatches : Fld := ⟨0x06c, 0x0, 31, 16⟩
abbrev CR_RES_STAT_column : Fld := ⟨0x06c, 0x0, 4, 0⟩
abbrev CR_RES_INJECT_arm : Fld := ⟨0x070, 0x0, 31, 31⟩
abbrev CR_RES_INJECT_bit : Fld := ⟨0x070, 0x0, 10, 5⟩
abbrev CR_RES_INJECT_column : Fld := ⟨0x070, 0x0, 4, 0⟩
abbrev CR_IDX_table : Fld := ⟨0x078, 0x0, 31, 28⟩
abbrev CR_IDX_auto_inc : Fld := ⟨0x078, 0x0, 27, 27⟩
abbrev CR_IDX_index : Fld := ⟨0x078, 0x0, 11, 0⟩
abbrev CR_DATA_data : Fld := ⟨0x07c, 0x0, 31, 0⟩
abbrev CR_ECC_wbuf_ce : Fld := ⟨0x080, 0x0, 31, 24⟩
abbrev CR_ECC_abuf_ce : Fld := ⟨0x080, 0x0, 23, 16⟩
abbrev CR_ECC_acc_ce : Fld := ⟨0x080, 0x0, 15, 8⟩
abbrev CR_ECC_rowbuf_ce : Fld := ⟨0x080, 0x0, 7, 0⟩
abbrev CR_FAULT_code : Fld := ⟨0x084, 0x0, 31, 16⟩
abbrev CR_FAULT_OP_desc : Fld := ⟨0x088, 0x0, 16, 0⟩
abbrev CR_WALK_CNT_t0_issued : Fld := ⟨0x090, 0x0, 31, 0⟩
abbrev CR_WALK_SKIP_skipped : Fld := ⟨0x094, 0x0, 31, 0⟩
abbrev CR_WALK_EXT_extent : Fld := ⟨0x098, 0x0, 23, 0⟩
abbrev CR_WALK_ACC_limit : Fld := ⟨0x09c, 0x0, 22, 16⟩
abbrev CR_WALK_ACC_peak : Fld := ⟨0x09c, 0x0, 15, 8⟩
abbrev CR_WALK_ACC_held : Fld := ⟨0x09c, 0x0, 7, 0⟩

/-! ### Fields of the `cnt` registers -/

abbrev PC_SELi_en : Fld := ⟨0xf00, 0x4, 31, 31⟩
abbrev PC_SELi_irq_en : Fld := ⟨0xf00, 0x4, 30, 30⟩
abbrev PC_SELi_event : Fld := ⟨0xf00, 0x4, 7, 0⟩
abbrev PC_CNTi_LO_cnt_lo : Fld := ⟨0xf20, 0x8, 31, 0⟩
abbrev PC_CNTi_HI_cnt_hi : Fld := ⟨0xf24, 0x8, 15, 0⟩
abbrev PC_SNAPi_LO_snap_lo : Fld := ⟨0xf60, 0x8, 31, 0⟩
abbrev PC_SNAPi_HI_snap_hi : Fld := ⟨0xf64, 0x8, 15, 0⟩
abbrev PC_OVF_ovf : Fld := ⟨0xfa0, 0x0, 7, 0⟩
abbrev PC_SAMPLE_valid : Fld := ⟨0xfa4, 0x0, 31, 31⟩
abbrev PC_SAMPLE_pc : Fld := ⟨0xfa4, 0x0, 24, 17⟩
abbrev PC_SAMPLE_desc : Fld := ⟨0xfa4, 0x0, 16, 0⟩

end Sys2Proof.Machine
end

