-- ==== Sys2Proof/Machine/Numbers.lean ====
section
/-! DEFINITION. Numbers and formats (R125 to R163): exact dyadic values, the sixteen formats, rounding to nearest with ties away
from zero, saturation, row exponents, and the row unit's functions with their error bounds (R188 to R190). -/

namespace Sys2Proof.Machine

/-- The exact number m × 2^e. -/
structure Dy where
  m : Int
  e : Int
  deriving DecidableEq, Repr

/-- 2^n as an integer, for a shift that may be negative; 0 then. -/
def pow2 (n : Int) : Int := if n < 0 then 0 else ((2 ^ n.toNat : Nat) : Int)

namespace Dy

def zero : Dy := ⟨0, 0⟩
def ofInt (n : Int) : Dy := ⟨n, 0⟩
def neg (a : Dy) : Dy := ⟨-a.m, a.e⟩
def abs (a : Dy) : Dy := ⟨(a.m.natAbs : Int), a.e⟩
def mul (a b : Dy) : Dy := ⟨a.m * b.m, a.e + b.e⟩
def shift (a : Dy) (n : Int) : Dy := ⟨a.m, a.e + n⟩

/-- Both significands on the lower exponent. -/
def align (a b : Dy) : Int × Int × Int :=
  let e := min a.e b.e
  (a.m * pow2 (a.e - e), b.m * pow2 (b.e - e), e)

def add (a b : Dy) : Dy := let (x, y, e) := align a b; ⟨x + y, e⟩
def sub (a b : Dy) : Dy := a.add b.neg
def lt (a b : Dy) : Bool := let (x, y, _) := align a b; decide (x < y)
def le (a b : Dy) : Bool := let (x, y, _) := align a b; decide (x ≤ y)
def eq (a b : Dy) : Bool := let (x, y, _) := align a b; decide (x = y)
def isZero (a : Dy) : Bool := a.m == 0
def isNeg (a : Dy) : Bool := decide (a.m < 0)

/-- floor(log2 |a|) of a non-zero number. -/
def log (a : Dy) : Int := (Nat.log2 a.m.natAbs : Int) + a.e

/-- The multiple of 2^lsb nearest to a, ties away from zero (R140), in units of 2^lsb. -/
def round (a : Dy) (lsb : Int) : Int :=
  if lsb ≤ a.e then a.m * pow2 (a.e - lsb) else rdivInt a.m (2 ^ (lsb - a.e).toNat)

/-- The multiple of 2^lsb toward minus infinity, in units of 2^lsb. -/
def floor (a : Dy) (lsb : Int) : Int :=
  if lsb ≤ a.e then a.m * pow2 (a.e - lsb) else a.m / pow2 (lsb - a.e)

/-- The number with its significand rounded to n bits (R140). -/
def roundSig (a : Dy) (n : Nat) : Dy :=
  if a.m = 0 then zero else let l := a.log - ((n : Int) - 1); ⟨a.round l, l⟩

/-- The number with its significand cut toward zero to n bits (R133). -/
def truncSig (a : Dy) (n : Nat) : Dy :=
  if a.m = 0 then zero
  else
    let l := a.log - ((n : Int) - 1)
    let q := (a.abs.floor l)
    ⟨if a.m < 0 then -q else q, l⟩

/-- a / b rounded to a multiple of 2^lsb, in units of it. -/
def divRound (a b : Dy) (lsb : Int) : Int :=
  let sh := a.e - b.e - lsb
  let n := a.m * (if b.m < 0 then -1 else 1) * pow2 (max sh 0)
  let d := b.m.natAbs * 2 ^ (max (-sh) 0).toNat
  if d = 0 then 0 else rdivInt n d

/-- a / b to 200 bits below its leading bit: close enough to tell a result from its neighbours. -/
def div (a b : Dy) : Dy :=
  if a.m = 0 ∨ b.m = 0 then zero else let l := a.log - b.log - 200; ⟨a.divRound b l, l⟩

end Dy

/-! ### Floating-point formats -/

/-- A floating-point format: exponent and mantissa bits, bias, and the code of its largest finite value. -/
structure FloatFmt where
  eb : Nat
  mb : Nat
  bias : Nat
  top : Nat
  deriving DecidableEq, Repr

abbrev fpE4M3 : FloatFmt := ⟨4, 3, 7, 0x7E⟩
abbrev fpE5M2 : FloatFmt := ⟨5, 2, 15, 0x7B⟩
abbrev fp16 : FloatFmt := ⟨5, 10, 15, 0x7BFF⟩
abbrev bf16 : FloatFmt := ⟨8, 7, 127, 0x7F7F⟩
abbrev fp32 : FloatFmt := ⟨8, 23, 127, 0x7F7FFFFF⟩
abbrev fp64 : FloatFmt := ⟨11, 52, 1023, 0x7FEFFFFFFFFFFFFF⟩

/-- A number as a code of a floating-point format, rounded (R140) and saturated (R141), and whether it saturated. -/
def encodeFloat (f : FloatFmt) (x : Dy) : Nat × Bool :=
  if x.m = 0 then (0, false)
  else
    let emin : Int := 1 - (f.bias : Int)
    let ex := max x.log emin
    let c := ((ex - emin) * ((2 ^ f.mb : Nat) : Int) + x.abs.round (ex - f.mb)).toNat
    let sat := decide (f.top < c)
    ((if sat then f.top else c) + (if x.m < 0 then 2 ^ (f.eb + f.mb) else 0), sat)

/-- What a code stands for: a number, an infinity or a NaN. -/
inductive FVal where
  | num (x : Dy)
  | inf (negative : Bool)
  | nan
  deriving DecidableEq, Repr

/-- The value of a code of a floating-point format. E4M3 has no infinity and its NaN codes are 0x7F and 0xFF (R125). -/
def decodeFloat (f : FloatFmt) (c : Nat) : FVal :=
  let neg := bit c (f.eb + f.mb)
  let ex := bits c (f.eb + f.mb - 1) f.mb
  let m := c % 2 ^ f.mb
  let sg : Int := if neg then -1 else 1
  let fin := if ex = 0 then Dy.mk (sg * m) (1 - (f.bias : Int) - f.mb)
    else Dy.mk (sg * ((2 ^ f.mb + m : Nat) : Int)) ((ex : Int) - f.bias - f.mb)
  if f = fpE4M3 then (if c % 128 = 127 then .nan else .num fin)
  else if ex = 2 ^ f.eb - 1 then (if m = 0 then .inf neg else .nan)
  else .num fin

/-- The number of a code, for a code that the device itself wrote: never an infinity or a NaN (R141). -/
def floatVal (f : FloatFmt) (c : Nat) : Dy := match decodeFloat f c with | .num x => x | _ => .zero

/-- An FP32 word. -/
def to32 (x : Dy) : Nat := (encodeFloat fp32 x).1
/-- The number of an FP32 word. -/
def of32 (c : Nat) : Dy := floatVal fp32 c
/-- A number rounded to binary64. -/
def round64 (x : Dy) : Dy := floatVal fp64 (encodeFloat fp64 x).1

/-! ### The sixteen formats (R125) -/

/-- Bits of an element as it is stored: 12-bit formats lie in 16-bit containers (R127). -/
def fmtBits (f : Nat) : Nat :=
  match f with
  | 0 | 1 | 14 => 4
  | 2 | 3 | 9 | 10 | 15 => 8
  | 8 | 13 => 32
  | _ => 16

/-- The floating-point format of a format code. -/
def fmtFloat (f : Nat) : Option FloatFmt :=
  match f with
  | 9 => some fpE4M3 | 10 => some fpE5M2 | 11 => some fp16 | 12 => some bf16 | 13 => some fp32 | _ => none

/-- Width and signedness of an integer format. -/
def fmtInt (f : Nat) : Option (Nat × Bool) :=
  match f with
  | 0 => some (4, true) | 1 => some (4, false) | 2 => some (8, true) | 3 => some (8, false)
  | 4 => some (12, true) | 5 => some (12, false) | 6 => some (16, true) | 7 => some (16, false)
  | 8 => some (32, true) | _ => none

/-- Is the format an integer of at most 12 bits (R138)? -/
def fmtNarrowInt (f : Nat) : Bool := decide (f ≤ 5)

/-- An element's value before its scale, and whether it was not finite: (code − z) for an integer format; an infinity
stands for the largest finite value and a NaN for 0 (R131, R142). -/
def elemVal (f z c : Nat) : Dy × Bool :=
  match fmtFloat f with
  | some ff =>
    match decodeFloat ff c with
    | .num x => (x, false)
    | .inf neg => (let t := floatVal ff ff.top; if neg then t.neg else t, true)
    | .nan => (.zero, true)
  | none =>
    match fmtInt f with
    | some (w, sg) => (.ofInt ((if sg then toSigned w c else ((c % 2 ^ w : Nat) : Int)) - z), false)
    | none => (.zero, false)

/-- The code of the real value 0 (R240): z for a tensor with a zero point. -/
def zeroCode (f z : Nat) : Nat := if (fmtFloat f).isSome then 0 else z

/-- code_max of a format (R151); INT32, which the table leaves out, takes its largest value (log 21). -/
def codeMax (f : Nat) : Dy :=
  match f with
  | 9 => .ofInt 448
  | 10 => .ofInt 57344
  | _ => match fmtInt f with
    | some (w, true) => .ofInt (2 ^ (w - 1) - 1)
    | some (w, false) => .ofInt (2 ^ w - 1)
    | none => .ofInt 1

/-- An output code and whether it saturated (R127, R141, R154). -/
def encodeOut (f z : Nat) (e : Int) (x : Dy) : Nat × Bool :=
  match fmtFloat f with
  | some ff => encodeFloat ff (if f ≤ 10 then x.shift (-e) else x)
  | none =>
    match fmtInt f with
    | some (w, sg) =>
      let q := (x.shift (-e)).round 0 + z
      let hi : Int := if sg then 2 ^ (w - 1) - 1 else 2 ^ w - 1
      let lo : Int := if sg then -(2 ^ (w - 1)) else 0
      let q' := if q > hi then hi else if q < lo then lo else q
      (ofSigned (fmtBits f) q', q' != q)
    | none => (0, false)

/-- The smallest integer e with m ≤ c × 2^e, for positive m and c. -/
def leastExp (m c : Dy) : Int :=
  let e0 := m.log - c.log - 1
  if m.le (c.shift e0) then e0 else if m.le (c.shift (e0 + 1)) then e0 + 1 else e0 + 2

/-- The exponent of a row whose values lie from lo to hi, with a zero point z or none, clamped, and whether it was
clamped (R151 to R153). -/
def rowExponent (f z : Nat) (lo hi : Dy) : Int × Bool :=
  let raw : Option Int :=
    if z = 0 then
      let m := if lo.abs.lt hi.abs then hi.abs else lo.abs
      if m.isZero then some (-32) else some (leastExp m (codeMax f))
    else
      let top := (codeMax f).sub (.ofInt z)
      let up : Option Int := if hi.m ≤ 0 then some (-1000) else if top.m ≤ 0 then none else some (leastExp hi top)
      let dn : Int := if lo.isNeg then leastExp lo.abs (.ofInt z) else -1000
      match up with
      | none => none
      | some u => if u = -1000 ∧ dn = -1000 then some (-32) else some (max u dn)
  match raw with
  | none => (31, true)
  | some e => if e > 31 then (31, true) else if e < -32 then (-32, true) else (e, false)

/-- A codebook entry's value (R146). -/
def codebookVal (w : Nat) : Dy :=
  let e := bits w 12 7
  if e = 0 then .zero
  else ⟨(if bit w 13 then -1 else 1) * ((128 + w % 128 : Nat) : Int), (e : Int) - 32 - 7⟩

/-! ### The row unit's functions (R188 to R190) -/

/-- ln 2, 2 / √π and 1 / √(2π) with 256 fraction bits. -/
def ln2Fix : Nat := 80260960185991308862233904206310070533990667611589946606122867505419956976171
def twoOverRootPiFix : Nat := 130657381209852114387528029350014196574164286124850014242073919076264802271585
def phiZeroFix : Nat := 46194360132781112550002021175736725500524138381534012844286371432913401257262

/-- A number with 256 fraction bits. -/
def toFix (x : Dy) : Int := x.round (-256)
/-- The product of two such numbers. -/
def mulFix (a b : Int) : Int := a * b / (2 ^ 256 : Nat)

/-- e^x (far closer than any format resolves); beyond FP32's range a power of two past it. -/
def expDy (x : Dy) : Dy :=
  if (Dy.ofInt 200).lt x then ⟨1, 300⟩
  else if x.lt (.ofInt (-200)) then ⟨1, -300⟩
  else
    let f := toFix x
    let k := f / (ln2Fix : Int)
    let r := f - k * ln2Fix
    let step := fun (acc : Int × Int) (i : Nat) =>
      let t := mulFix acc.1 r / ((i + 1 : Nat) : Int)
      (t, acc.2 + t)
    let (_, s) := (List.range 60).foldl step (((2 ^ 256 : Nat) : Int), ((2 ^ 256 : Nat) : Int))
    ⟨s, k - 256⟩

/-- erf(x). -/
def erfDy (x : Dy) : Dy :=
  if (Dy.ofInt 7).lt x then .ofInt 1
  else if x.lt (.ofInt (-7)) then .ofInt (-1)
  else
    let f := toFix x
    let sq := mulFix f f
    let step := fun (acc : Int × Int) (i : Nat) =>
      let t := -(mulFix acc.1 sq) / ((i + 1 : Nat) : Int)
      (t, acc.2 + t / ((2 * i + 3 : Nat) : Int))
    let (_, s) := (List.range 300).foldl step (f, f)
    ⟨mulFix s twoOverRootPiFix, -256⟩

/-- The largest r with r² ≤ n. -/
def isqrt (n : Nat) : Nat :=
  ((List.range (Nat.log2 n / 2 + 1)).reverse).foldl (fun r i => let t := r + 2 ^ i; if t * t ≤ n then t else r) 0

/-- √x of a non-negative number, to 200 bits. -/
def sqrtDy (x : Dy) : Dy :=
  if x.m ≤ 0 then .zero
  else
    let p : Nat := 2 * 200 + (x.e % 2).toNat
    ⟨(isqrt (x.m.toNat * 2 ^ p) : Int), (x.e - p) / 2⟩

/-- σ(x), tanh x and Φ(x). -/
def sigmoidDy (x : Dy) : Dy := (Dy.ofInt 1).div ((Dy.ofInt 1).add (expDy x.neg))
def tanhDy (x : Dy) : Dy :=
  let a := expDy (x.shift 1)
  (a.sub (.ofInt 1)).div (a.add (.ofInt 1))
def phiDy (x : Dy) : Dy :=
  ((Dy.ofInt 1).add (erfDy (x.mul ⟨((isqrt (2 ^ 511) : Nat) : Int), -256⟩))).shift (-1)

/-- The exact result of an element-wise function (R188); `a` and `b` are AFFINE's for the channel. -/
def elemFn (fn : Nat) (x a b : Dy) : Dy :=
  match fn with
  | 0x01 => expDy x
  | 0x02 => if x.isZero then ⟨1, 300⟩ else (Dy.ofInt 1).div x
  | 0x03 => if x.m ≤ 0 then ⟨1, 300⟩ else (Dy.ofInt 1).div (sqrtDy x)
  | 0x04 => x.mul (phiDy x)
  | 0x05 => sigmoidDy x
  | 0x06 => tanhDy x
  | _ => (a.mul x).add b

/-- The exact results of a row-wise function over a row (R188), with γ, β and ε. -/
def rowFn (fn : Nat) (xs ga be : List Dy) (eps : Dy) : List Dy :=
  let n := Dy.ofInt (xs.length : Int)
  let sum := fun (l : List Dy) => l.foldl (fun s x => round64 (s.add x)) .zero
  match fn with
  | 0x10 =>
    let mx := xs.foldl (fun m x => if m.lt x then x else m) (xs.getD 0 .zero)
    let es := xs.map fun x => expDy (x.sub mx)
    let s := of32 (to32 (sum es))
    es.map fun e => e.div s
  | 0x11 =>
    let mu := (of32 (to32 (sum xs))).div n
    let ds := xs.map fun x => x.sub mu
    let sd := sqrtDy (((of32 (to32 (sum (ds.map fun d => d.mul d)))).div n).add eps)
    ds.zipIdx.map fun p => ((p.1.div sd).mul (ga.getD p.2 .zero)).add (be.getD p.2 .zero)
  | _ =>
    let rms := sqrtDy (((of32 (to32 (sum (xs.map fun x => x.mul x)))).div n).add eps)
    xs.zipIdx.map fun p => (p.1.div rms).mul (ga.getD p.2 .zero)

/-- Units in the last place by which a result may lie off the exact result rounded to FP32 (R188): `ref` is that
result's word without its sign, `g` is |γ| for LAYERNORM. -/
def fnBound (fn ref : Nat) (g : Dy) : Nat :=
  let ulp : Int := max 1 ((ref / 2 ^ 23 : Nat) : Int) - 150
  let inUlps := fun (x : Dy) => ((x.shift (-ulp)).floor 0).toNat
  match fn with
  | 0x01 | 0x03 => 2
  | 0x02 => 1
  | 0x04 => max 4 (inUlps ⟨1, -30⟩)
  | 0x05 | 0x06 => 3
  | 0x07 => 0
  | 0x10 => (2 ^ 23 + ref % 2 ^ 23) / 2 ^ 20
  | 0x11 => 8 + inUlps (g.abs.shift (-22))
  | _ => 6

/-- Subnormal inputs and results of the row unit are zeros of the same sign (R190). -/
def flushSub (w : Nat) : Nat := if bits w 30 23 = 0 then w / 2 ^ 31 * 2 ^ 31 else w

/-- A row-unit result: an FP32 word within the function's bound of the exact result, which one being free (log 20), and
whether it was not finite and so saturated (R190). The zeros of RECIP and RSQRT, whose result is not finite, saturate. -/
def fnResult (fn : Nat) (ins : List Nat) (i : Nat) (exact : Dy) (g : Dy) : Nat × Bool :=
  let (w, sat) := encodeFloat fp32 exact
  if sat then (w, true)
  else
    let mag := w % 2 ^ 31
    let b := fnBound fn mag g
    let m := mag + (Config.rowFnPlace fn ins i) % (2 * b + 1)
    let m' := min (m - min m b) 0x7F7FFFFF
    (flushSub (w / 2 ^ 31 * 2 ^ 31 + m'), false)

/-- round(8 × log2 x) of a positive number, exactly. -/
def log2Eighths (x : Dy) : Int :=
  -- floor(log2(x^16 × 2) / 2)
  (Dy.mk (x.m ^ 16 * 2) (16 * x.e)).log / 2

/-- 2^(n / 8) to 200 bits. -/
def pow2Eighths (n : Int) : Dy :=
  let r := (n % 8).toNat
  let q := n / 8
  -- the eighth root of 2^r, scaled by 2^200
  ⟨(isqrt (isqrt (isqrt (2 ^ (r + 1600)))) : Int), q - 200⟩

end Sys2Proof.Machine
end

