-- ==== Sys2Proof/Machine/Descr.lean ====
section
/-! DEFINITION. The structures of a job image that a core and a rink read: operator descriptors (R229 to R232),
quantisation tables (R161), loop nest tables (R204 to R208), rink programs, groups, halo and carry entries (R260, R261,
R272, R277), and the checks of one operator (R129, R138, R147, R162, R183, R189, R193, R209, R234, R235, R246) and its tile shape
(R220 to R222). -/

namespace Sys2Proof.Machine

/-- x rounded up to a multiple of 64 (R221). -/
def ru64 (x : Nat) : Nat := (x + 63) / 64 * 64

/-- A reader of a memory: n bytes from an address. -/
abbrev Reader := Nat → Nat → List Byte

/-- The bytes of a list from offset o, n of them, are all zero. -/
def allZero (bs : List Byte) (o n : Nat) : Bool := (sub bs o n).all (· == 0)

/-- A signed number of n bytes at offset o. -/
def leS (bs : List Byte) (o n : Nat) : Int := toSigned (8 * n) (le bs o n)

/-! ### Loop nest tables -/

/-- One level of a loop nest table (R208). -/
structure Level where
  dim : Nat
  rtSrc : Nat
  ordT2 : Nat
  ordT1 : Nat
  ordT0 : Nat
  extent : Nat
  t2 : Nat
  t1 : Nat
  t0 : Nat
  rtAddr : Nat
  actS : Int
  wtS : Int
  outS : Int
  /-- The reserved bits are zero. -/
  clean : Bool
  deriving DecidableEq, Repr

/-- A loop nest table (R207). -/
structure Lnt where
  nLevels : Nat
  version : Nat
  arrOrder : Bool
  actExt : Bool
  wtExt : Bool
  rowLayout : Bool
  accLimit : Nat
  actPad : Nat
  t2Base : Nat
  t2Size : Nat
  wbufBase : Nat
  abufBase : Nat
  levels : List Level
  clean : Bool
  deriving DecidableEq, Repr

def parseLevel (b : List Byte) : Level :=
  let o := le b 2 2
  { dim := le b 0 1, rtSrc := le b 1 1 % 4, ordT2 := o % 8, ordT1 := o / 8 % 8, ordT0 := o / 64 % 8
    extent := le b 4 4 % 2 ^ 24, t2 := le b 8 2, t1 := le b 0xA 2, t0 := le b 0xC 1, rtAddr := le b 0x10 4 % 2 ^ 23
    actS := leS b 0x14 4, wtS := leS b 0x18 4, outS := leS b 0x1C 4
    clean := le b 1 1 < 4 && o < 512 && le b 4 4 < 2 ^ 24 && allZero b 0xD 3 && le b 0x10 4 < 2 ^ 23 }

/-- The table at an address: its header and as many levels as it names, at most six. -/
def parseLnt (rd : Reader) (a : Nat) : Lnt :=
  let b := rd a 32
  let f := le b 2 1
  { nLevels := le b 0 1, version := le b 1 1, arrOrder := bit f 0, actExt := bit f 1, wtExt := bit f 2
    rowLayout := bit f 3, accLimit := le b 3 1, actPad := le b 4 2, t2Base := le b 8 4 % 2 ^ 17
    t2Size := le b 0xC 4 % 2 ^ 18, wbufBase := le b 0x10 2 % 2 ^ 12, abufBase := le b 0x12 2 % 2 ^ 13
    levels := (List.range (min (le b 0 1) 6)).map fun i => parseLevel (rd (a + 32 + 32 * i) 32)
    clean := f < 16 && allZero b 6 2 && le b 8 4 < 2 ^ 17 && le b 0xC 4 < 2 ^ 18 && le b 0x10 2 < 2 ^ 12 &&
      le b 0x12 2 < 2 ^ 13 && allZero b 0x14 12 }

/-- The level of a dimension (R205). -/
def Lnt.level (t : Lnt) (d : Nat) : Option Level := t.levels.find? fun l => l.dim == d
def Lnt.t0 (t : Lnt) (d : Nat) : Nat := match t.level d with | some l => l.t0 | none => 1
def Lnt.t1 (t : Lnt) (d : Nat) : Nat := match t.level d with | some l => l.t1 | none => 1
def Lnt.actS (t : Lnt) (d : Nat) : Int := match t.level d with | some l => l.actS | none => 0
def Lnt.wtS (t : Lnt) (d : Nat) : Int := match t.level d with | some l => l.wtS | none => 0
def Lnt.outS (t : Lnt) (d : Nat) : Int := match t.level d with | some l => l.outS | none => 0

abbrev dOC : Nat := 0
abbrev dOX : Nat := 1
abbrev dOY : Nat := 2
abbrev dIC : Nat := 3
abbrev dKX : Nat := 4
abbrev dKY : Nat := 5

/-- A reduction dimension (R205). -/
def isRed (d : Nat) : Bool := decide (3 ≤ d)

/-- Every value 0 to n − 1 once. -/
def isPerm (vs : List Nat) : Bool := (List.range vs.length).all fun i => vs.contains i

/-- The order of a tile level is of class RI, OI (R211). -/
def isRI (ls : List Level) (o : Level → Nat) : Bool :=
  ls.all fun r => !isRed r.dim || ls.all fun w => isRed w.dim || decide (o w < o r)
def isOI (ls : List Level) (o : Level → Nat) : Bool :=
  ls.all fun r => !isRed r.dim || ls.all fun w => isRed w.dim || decide (o r < o w)

/-- The bytes of a scratchpad. -/
def spadBytes : Nat := 8388608

/-- The loop nest table passes R209. -/
def lntOk (t : Lnt) : Bool :=
  let ls := t.levels
  let cls := fun o => isRI ls o || isOI ls o
  (1 ≤ t.nLevels && t.nLevels ≤ 6 && t.version == 1 && t.clean && ls.all (·.clean)) &&
  (ls.all (fun l => l.dim ≤ 5) && (ls.map (·.dim)).Nodup) &&
  (isPerm (ls.map (·.ordT2)) && isPerm (ls.map (·.ordT1)) && isPerm (ls.map (·.ordT0))) &&
  (cls (·.ordT2) && cls (·.ordT1) && cls (·.ordT0)) &&
  (ls.all fun l => 1 ≤ l.t0 && l.t0 ≤ 64 && l.t0 ≤ l.t1 && l.t1 % l.t0 == 0 &&
    (l.t2 == 0 || (l.t1 ≤ l.t2 && l.t2 % l.t1 == 0))) &&
  (ls.all fun l => (l.rtSrc == 3 || 1 ≤ l.extent) && (if l.rtSrc == 3 then l.rtAddr % 4 == 0 && l.rtAddr + 4 ≤ spadBytes
    else l.rtAddr == 0)) &&
  (64 * (t.t2Base + t.t2Size) ≤ spadBytes && (t.actExt || t.wtExt || t.t2Size == 0)) &&
  (1 ≤ t.accLimit && t.accLimit ≤ 64) &&
  (!t.arrOrder || (isRI ls (·.ordT1) && t.wtExt))

/-! ### Quantisation tables -/

/-- The header of a quantisation table (R161). -/
structure Qt where
  addr : Nat
  len : Nat
  act : Nat
  wt : Nat
  out : Nat
  accInt : Bool
  perRow : Bool
  mode : Nat
  zin : Nat
  zout : Nat
  ein : Int
  eout : Int
  missLo : Nat
  priv : Nat
  nch : Nat
  cb : Nat
  chOff : Nat
  privOff : Nat
  cbOff : Nat
  clean : Bool
  deriving DecidableEq, Repr

def parseQt (rd : Reader) (a : Nat) : Qt :=
  let b := rd a 32
  let f := le b 7 1
  { addr := a, len := le b 0 2 * 16, act := le b 4 1, wt := le b 5 1, out := le b 6 1, accInt := bit f 0
    perRow := bit f 1, mode := f / 4 % 4, zin := le b 8 1, zout := le b 9 1, ein := leS b 0xA 1, eout := leS b 0xB 1
    missLo := le b 0xC 1, priv := le b 0xD 1, nch := le b 0xE 2, cb := le b 0x10 2, chOff := le b 0x14 4
    privOff := le b 0x18 4, cbOff := le b 0x1C 4
    clean := le b 2 1 == 1 && allZero b 3 1 && f < 16 && allZero b 0x12 2 }

/-- The scale and codebook registers' contents for an operator (R173): channel scales, privileged list, codebook. -/
structure QBank where
  scales : List Nat
  priv : List Nat
  cb : List Nat
  deriving DecidableEq, Repr

def QBank.empty : QBank := ⟨[], [], []⟩

def readBank (rd : Reader) (q : Qt) : QBank :=
  { scales := (rd (q.addr + q.chOff) q.nch).map (·.toNat)
    priv := (List.range (min q.priv 64)).map fun i => le (rd (q.addr + q.privOff + 4 * i) 4) 0 4
    cb := (List.range (min q.cb 256)).map fun i => le (rd (q.addr + q.cbOff + 2 * i) 2) 0 2 }

/-- The weight scale exponent of a channel (R144). -/
def QBank.scale (b : QBank) (c : Nat) : Int := toSigned 8 (b.scales.getD c 0)

/-- The privileged-list word of a channel (R145, R161). -/
def QBank.privOf (b : QBank) (c : Nat) : Option Nat := b.priv.find? fun w => w % 2 ^ 16 == c

/-- The table passes R162; out_mode 0b11 is a reserved encoding (R150). -/
def qtOk (q : Qt) : Bool :=
  q.clean && q.mode != 3 && decide (q.chOff + q.nch ≤ q.len) && decide (q.privOff + 4 * q.priv ≤ q.len) &&
  decide (q.cbOff + 2 * q.cb ≤ q.len) && decide (-32 ≤ q.ein ∧ q.ein ≤ 31 ∧ -32 ≤ q.eout ∧ q.eout ≤ 31) &&
  decide (q.missLo ≤ 15) && decide (1 ≤ q.nch ∧ q.nch ≤ 4096) &&
  -- the reserved bits of the privileged list are R147's business with its banks
  decide (32 ≤ q.len)

/-! ### Operator descriptors -/

/-- An operator descriptor (R230). -/
structure Desc where
  kind : Nat
  version : Nat
  flags : Nat
  fn : Nat
  lnt : Nat
  qt : Nat
  actBase : Nat
  wtBase : Nat
  outBase : Nat
  rsIn : Nat
  rsOut : Nat
  aux : Nat
  aux2 : Nat
  inW : Nat
  inH : Nat
  kx : Nat
  ky : Nat
  sx : Nat
  sy : Nat
  dx : Nat
  dy : Nat
  padL : Nat
  padR : Nat
  padT : Nat
  padB : Nat
  padMode : Nat
  ncls : Nat
  padConst : Nat
  param0 : Nat
  param1 : Nat
  clean : Bool
  deriving DecidableEq, Repr

def parseDesc (b : List Byte) : Desc :=
  { kind := le b 0 1, version := le b 1 1, flags := le b 2 1, fn := le b 3 1, lnt := le b 4 4 % 2 ^ 18 * 32
    qt := le b 8 4 % 2 ^ 19 * 16, actBase := le b 0xC 4, wtBase := le b 0x10 4, outBase := le b 0x14 4 % 2 ^ 23
    rsIn := le b 0x18 4, rsOut := le b 0x1C 4, aux := le b 0x20 4, aux2 := le b 0x24 4, inW := le b 0x28 2 % 2 ^ 15
    inH := le b 0x2A 2 % 2 ^ 15, kx := le b 0x2C 1 % 64, ky := le b 0x2D 1 % 64, sx := le b 0x2E 1 % 16 + 1
    sy := le b 0x2E 1 / 16 + 1, dx := le b 0x2F 1 % 16 + 1, dy := le b 0x2F 1 / 16 + 1, padL := le b 0x30 1
    padR := le b 0x31 1, padT := le b 0x32 1, padB := le b 0x33 1, padMode := le b 0x34 1 % 4, ncls := le b 0x35 1
    padConst := le b 0x36 2, param0 := le b 0x38 4, param1 := le b 0x3C 4
    clean := le b 2 1 < 64 && le b 4 4 < 2 ^ 18 && le b 8 4 < 2 ^ 19 && le b 0x14 4 < 2 ^ 23 && le b 0x28 2 < 2 ^ 15 &&
      le b 0x2A 2 < 2 ^ 15 && le b 0x2C 1 < 64 && le b 0x2D 1 < 64 && le b 0x34 1 < 4 }

/-- An operator: descriptor, loop nest table and quantisation table. -/
structure Oper where
  d : Desc
  l : Lnt
  q : Qt
  deriving DecidableEq, Repr

/-- The operator whose descriptor lies at an address in 64-byte units. -/
def parseOper (rd : Reader) (a : Nat) : Oper :=
  let d := parseDesc (rd (a * 64) 64)
  { d := d, l := parseLnt rd d.lnt, q := parseQt rd d.qt }

namespace Oper

def winograd (o : Oper) : Bool := bit o.d.flags 0
def countPad (o : Oper) : Bool := bit o.d.flags 1
def inWCell (o : Oper) : Bool := bit o.d.flags 2
def inHCell (o : Oper) : Bool := bit o.d.flags 3
def actFromGddr (o : Oper) : Bool := bit o.d.flags 4
def summary (o : Oper) : Bool := bit o.d.flags 5
/-- CONV and the pools read an image with a window; ARGMAX reads pixels; the others read rows (R229). -/
def isConv (o : Oper) : Bool := o.d.kind == 1
def isMat (o : Oper) : Bool := o.d.kind == 2
def isPair (o : Oper) : Bool := o.d.kind == 3
def isRowFn (o : Oper) : Bool := o.d.kind == 4
def isPool (o : Oper) : Bool := o.d.kind == 5 || o.d.kind == 6
def isArgmax (o : Oper) : Bool := o.d.kind == 7
def onRowUnit (o : Oper) : Bool := decide (4 ≤ o.d.kind)
def planar (o : Oper) : Bool := o.isConv || o.isPool || o.isArgmax
def hasWeights (o : Oper) : Bool := decide (o.d.kind ≤ 3)

/-- The double-rate condition on the formats alone (R169). -/
def doubleRate (o : Oper) : Bool :=
  (o.q.wt == 0 || o.q.wt == 1) && (o.q.act ≤ 3 || o.q.act == 9 || o.q.act == 10) && !o.winograd

/-- A CB4 privileged channel among the channels from c on, n of them, drops a tile to one product (R134). -/
def tileDouble (o : Oper) (b : QBank) (c n : Nat) : Bool :=
  o.doubleRate && !(b.priv.any fun w => !bit w 16 && decide (c ≤ w % 2 ^ 16) && decide (w % 2 ^ 16 < c + n))

/-- The input size of the current cell (R237, R268). -/
def inW (o : Oper) (cellW : Nat) : Nat := if o.inWCell then cellW else o.d.inW
def inH (o : Oper) (cellH : Nat) : Nat := if o.inHCell then cellH else o.d.inH

end Oper

/-- The output size of R237 in one dimension. -/
def outSize (n lo hi d k s : Nat) : Nat :=
  if n + lo + hi < d * (k - 1) + 1 then 0 else (n + lo + hi - d * (k - 1) - 1) / s + 1

namespace Oper

/-- The output width and height for a cell (R237); an operator over rows has none, ARGMAX that of its input. -/
def outW (o : Oper) (cellW : Nat) : Nat :=
  if o.isArgmax then o.inW cellW else outSize (o.inW cellW) o.d.padL o.d.padR o.d.dx o.d.kx o.d.sx
def outH (o : Oper) (cellH : Nat) : Nat :=
  if o.isArgmax then o.inH cellH else outSize (o.inH cellH) o.d.padT o.d.padB o.d.dy o.d.ky o.d.sy

/-- The cell-derived extent of rt_src 0b01 and 0b10 (R213, R239). An operator over rows takes the cell's own size
(DEDUCED, log 22). -/
def cellExtent (o : Oper) (src cellW cellH : Nat) : Nat :=
  let v := if src = 1 then (if o.planar then o.outW cellW else cellW) else (if o.planar then o.outH cellH else cellH)
  if o.winograd then cdiv v 2 else v

/-- The extent of a level as known at the check: static, cell-derived, or the bound (R221). -/
def knownExtent (o : Oper) (l : Level) (cellW cellH : Nat) : Nat :=
  if l.rtSrc = 1 ∨ l.rtSrc = 2 then o.cellExtent l.rtSrc cellW cellH else l.extent

/-- Twice the width of an element in bytes (R221). -/
def half (f : Nat) : Nat := if fmtBits f = 4 then 1 else fmtBits f / 4

/-- W1, or W2 by the T2 sizes (R221). -/
def wSlot (o : Oper) (t : Nat → Nat) : Nat :=
  if o.hasWeights then ru64 (cdiv (half o.q.wt * (t dOC * t dIC * t dKX * t dKY)) 2) else 0

/-- Strides and dilations, 1 for a row-layout operand (R221); ARGMAX reads each pixel once. -/
def geo (o : Oper) : Nat × Nat × Nat × Nat := if o.isConv || o.isPool then (o.d.sx, o.d.sy, o.d.dx, o.d.dy) else (1, 1, 1, 1)

/-- IX and IY (R221). In Winograd mode the positions are blocks of two and the span adds the patch's overlap. -/
def spanX (o : Oper) (t : Nat → Nat) : Nat :=
  let (sx, _, dx, _) := o.geo
  if o.winograd then 2 * (t dOX - 1) + 4 else (t dOX - 1) * sx + (t dKX - 1) * dx + 1
def spanY (o : Oper) (t : Nat → Nat) : Nat :=
  let (_, sy, _, dy) := o.geo
  if o.winograd then 2 * (t dOY - 1) + 4 else (t dOY - 1) * sy + (t dKY - 1) * dy + 1

/-- The dimension that numbers an activation's channels (R247). -/
def chDim (o : Oper) : Nat := if o.isPool || o.isArgmax then dOC else dIC

/-- Bytes of a row of the slot (R221). -/
def rowBytes (o : Oper) (t : Nat → Nat) : Nat :=
  if o.planar then ru64 (cdiv (half o.q.act * o.spanX t) 2) else ru64 (cdiv (half o.q.act * t dIC) 2)

/-- A1, or A2 by the T2 sizes (R221). -/
def aSlot (o : Oper) (t : Nat → Nat) : Nat :=
  if o.planar then o.rowBytes t * o.spanY t * t o.chDim else o.rowBytes t * t dOY * t dOX

/-- T1 sizes, and T2 sizes given the schedule extents. -/
def t1 (o : Oper) (d : Nat) : Nat := o.l.t1 d
def t2 (o : Oper) (ext : Nat → Nat) (d : Nat) : Nat :=
  match o.l.level d with | some l => if l.t2 = 0 then ext d else l.t2 | none => 1

end Oper

/-- The three trip counts of a level for an extent (R210). -/
def trips (l : Level) (s : Nat) : Nat × Nat × Nat :=
  let t2 := if l.t2 = 0 then s else l.t2
  (if t2 = 0 then 0 else cdiv s t2, if l.t1 = 0 then 0 else cdiv t2 l.t1, if l.t0 = 0 then 0 else l.t1 / l.t0)

/-- The levels in an order, outermost first. -/
def inOrder (ls : List Level) (o : Level → Nat) : List Level := (List.range 6).filterMap fun i => ls.find? fun l => o l == i

/-- The loops of the nest of R210 as (is reduction, trip count), outermost first. -/
def nestLoops (t : Lnt) (ext : Nat → Nat) : List (Bool × Nat) :=
  let at' := fun (l : Level) => trips l (ext l.dim)
  (inOrder t.levels (·.ordT2)).map (fun l => (isRed l.dim, (at' l).1)) ++
  (inOrder t.levels (·.ordT1)).map (fun l => (isRed l.dim, (at' l).2.1)) ++
  (inOrder t.levels (·.ordT0)).map fun l => (isRed l.dim, (at' l).2.2)

/-- N_acc (R221). -/
def nAcc (t : Lnt) (ext : Nat → Nat) : Nat :=
  let rest := ((nestLoops t ext).filter fun l => l.2 != 1).dropWhile fun l => !l.1
  (rest.filter fun l => !l.1).foldl (fun p l => p * l.2) 1

/-- N_row (R221). -/
def nRow (o : Oper) (ext : Nat → Nat) : Nat :=
  if o.q.mode ≠ 1 then 0
  else if o.planar then cdiv (ext dOX) (max 1 (o.l.t0 dOX)) * cdiv (ext dOC) (max 1 (o.l.t0 dOC))
  else cdiv (ext dOC) (max 1 (o.l.t0 dOC))

/-- The tile-shape check (R220 to R222) with fetch-ahead f: the code of the first test that fails, 0 when all pass. `ext`
gives the extents as known; an unknown one (a bound of 0) makes its quantities untestable. `extra` is the fused-pair
intermediate; a product of a pair takes tests 1 to 3 alone. -/
def shapeCheck (o : Oper) (f cellW cellH : Nat) (extra : Nat) (pair : Bool) : Nat :=
  let ext := fun d => match o.l.level d with | some l => o.knownExtent l cellW cellH | none => 1
  let unknown := fun d => match o.l.level d with | some l => l.rtSrc == 3 && l.extent == 0 | none => false
  let anyUnknown := [dOC, dOX, dOY, dIC, dKX, dKY].any unknown
  let red := o.l.t0 dIC * o.l.t0 dKX * o.l.t0 dKY
  let bounds := o.l.levels.all fun l => !(l.rtSrc == 1 || l.rtSrc == 2) || o.cellExtent l.rtSrc cellW cellH ≤ l.extent
  let wino := [dKX, dKY].all fun d => match o.l.level d with
    | some l => l.extent == 3 && l.rtSrc == 0 && l.t2 == 3 && l.t1 == 3 && l.t0 == 3
    | none => false
  let legal := decide (o.l.t0 dOX * o.l.t0 dOY ≤ 32) && decide (o.l.t0 dOC ≤ 32) &&
    (if o.winograd then wino && decide (o.l.t0 dIC ≤ 32) else decide (red ≤ if o.doubleRate then 64 else 32)) &&
    (!(o.q.mode == 1 && o.planar) || o.l.t0 dOY == 1) && bounds
  let sw := if o.winograd then 32 * ext dIC * ext dOC else 0
  let sa := if o.winograd then 131072 else extra
  let w := if o.winograd then 16 else 1
  let t2 := o.t2 ext
  let far := (if o.l.actExt then o.aSlot t2 else 0) + (if o.l.wtExt then o.wSlot t2 else 0)
  if !legal then 0x0101
  else if 262144 < 64 * o.l.wbufBase + (f + 1) * o.wSlot o.t1 + sw ∧ !(o.winograd && (unknown dIC || unknown dOC)) then 0x0102
  else if 524288 < 64 * o.l.abufBase + (f + 1) * o.aSlot o.t1 + sa then 0x0103
  else if pair then 0
  else if !anyUnknown ∧ o.l.accLimit < w * max (nAcc o.l ext) (nRow o ext) then 0x0104
  else if !anyUnknown ∧ 64 * o.l.t2Size < (f + 1) * far then 0x0105
  else 0

/-- The bytes of a fused pair's intermediate area for N1 columns (R193). -/
def pairArea (fmt n1 : Nat) : Nat := 32 * ru64 (cdiv (Oper.half fmt * n1) 2)

/-- A dimension's extent at its static value or bound. -/
def Oper.bound (o : Oper) (d : Nat) : Nat := match o.l.level d with | some l => l.extent | none => 1

/-! ### The checks of one operator at load -/

/-- R129. -/
def fmtsOk (o : Oper) (b : QBank) : Bool :=
  let roleAct := [0, 1, 2, 3, 4, 5, 9, 10, 11, 12]
  let roleWt := [0, 1, 2, 3, 9, 10, 11, 12]
  let roleRow := [0, 1, 2, 3, 4, 5, 6, 7, 8, 9, 10, 11, 12, 13]
  let roleOut := [0, 1, 2, 3, 4, 5, 6, 7, 9, 10, 11, 12, 13]
  (o.q.act ≤ 15 && o.q.wt ≤ 15 && o.q.out ≤ 15) &&
  (if o.onRowUnit then roleRow.contains o.q.act else roleAct.contains o.q.act && roleWt.contains o.q.wt) &&
  (roleOut.contains o.q.out || (o.q.out == 8 && o.q.accInt && !o.onRowUnit)) &&
  !((o.q.act == 4 || o.q.act == 5) && (o.q.wt == 11 || o.q.wt == 12) && !o.onRowUnit) &&
  (o.q.zin == 0 || [1, 3, 5].contains o.q.act) && (o.q.zout == 0 || [1, 3, 5].contains o.q.out) &&
  (b.priv.all fun w => if bit w 16 then fmtBits o.q.wt == 8 else fmtBits o.q.wt == 4) &&
  -- a UINT4 zero point is at most 15 (R149)
  (o.q.act != 1 || o.q.zin ≤ 15) && (o.q.out != 1 || o.q.zout ≤ 15)

/-- R138. -/
def intGridOk (o : Oper) : Bool :=
  !o.q.accInt || (fmtNarrowInt o.q.act && o.q.wt ≤ 3 && o.q.priv == 0 &&
    (!o.q.perRow || o.isMat || o.isPair || (o.isConv && o.d.ky == 1)))

/-- R147. -/
def codebookOk (o : Oper) (b : QBank) : Bool :=
  o.q.priv ≤ 64 && o.q.cb ≤ 256 && b.priv.all fun w => bit w 16 || 16 * bits w 20 17 + 16 ≤ o.q.cb

/-- R183. -/
def winogradOk (o : Oper) : Bool :=
  !o.winograd || (o.isConv && [0, 1, 2, 3, 4, 5, 9, 10].contains o.q.act && [0, 1, 2, 3, 9, 10].contains o.q.wt &&
    !o.q.accInt && o.q.priv == 0 && o.d.sx == 1 && o.d.sy == 1 && o.d.dx == 1 && o.d.dy == 1 &&
    o.d.kx == 3 && o.d.ky == 3)

/-- The codes of the row unit's functions (R188). -/
def isFn (f : Nat) : Bool := (1 ≤ f && f ≤ 7) || (0x10 ≤ f && f ≤ 0x12)

/-- An address field holds a scratchpad address. -/
def inSpad (v : Nat) : Bool := decide (v < spadBytes)

/-- The planar strides agree (R235). -/
def stridesOk (o : Oper) : Bool :=
  let pr := if (o.l.level dOY).isSome then o.l.actS dOY / o.d.sy else if (o.l.level dKY).isSome then o.l.actS dKY / o.d.dy else o.d.inW
  let has := fun d (v : Int) => match o.l.level d with | some l => l.actS == v | none => true
  has dOX o.d.sx && has dKX o.d.dx && has dOY (o.d.sy * pr) && has dKY (o.d.dy * pr) && decide ((o.d.inW : Int) ≤ pr) &&
  (match o.l.level dIC with | some l => decide (pr * o.d.inH ≤ l.actS) | none => true)

/-- Fields by kind (R232), flags by kind, and the fields that a kind does not use (R234). -/
def kindFieldsOk (o : Oper) : Bool :=
  let d := o.d
  let rowsOnly := d.inW == 0 && d.inH == 0 && d.sx == 1 && d.sy == 1 && d.dx == 1 && d.dy == 1 && d.padL == 0 &&
    d.padR == 0 && d.padT == 0 && d.padB == 0 && d.padMode == 0 && d.padConst == 0 && d.kx == 1 && d.ky == 1
  let image := 1 ≤ d.inW && d.inW ≤ 32767 && 1 ≤ d.inH && d.inH ≤ 32767 && 1 ≤ d.kx && 1 ≤ d.ky
  (if o.isMat || o.isPair || o.isRowFn then rowsOnly else image) &&
  (if o.isRowFn || o.isPair then isFn d.fn else d.fn == 0) &&
  (!o.countPad || d.kind == 6) && (!o.summary || o.isArgmax) && (o.isArgmax || d.ncls == 0) &&
  (o.hasWeights || d.wtBase == 0) &&
  (inSpad d.rsIn && inSpad d.rsOut && inSpad d.aux2 && (o.isPair || inSpad d.aux)) &&
  (match d.kind with
   | 3 => d.aux2 == 0 && d.param1 == 0 && decide (d.aux < 2 ^ 17) && (d.fn == 0x11 || d.fn == 0x12 || d.param0 == 0)
   | 4 => d.param1 == 0 && ([0x07, 0x11, 0x12].contains d.fn || d.aux == 0) && ([0x07, 0x11].contains d.fn || d.aux2 == 0) &&
      (d.fn == 0x11 || d.fn == 0x12 || d.param0 == 0)
   | 7 => d.aux % 256 == 0 && (o.summary || d.aux == 0) && decide (d.param1 < 256)
   | _ => d.aux2 == 0 && d.param0 == 0 && d.param1 == 0 && (o.q.mode == 2 || d.aux == 0))

/-- R234 for one operator, a FUSED_PAIR's P2 apart; with R189 and R246. -/
def descOk (o : Oper) : Bool :=
  let d := o.d
  let ext := fun k => match o.l.level k with | some l => l.extent | none => 1
  let stat := fun k v => match o.l.level k with | some l => l.rtSrc != 0 || l.extent == v | none => v == 1 || v == 0
  (1 ≤ d.kind && d.kind ≤ 7 && d.version == 1 && d.clean) && (o.l.rowLayout == !o.planar) && kindFieldsOk o &&
  (!(o.isConv || o.isPool) || (ext dKX == d.kx && ext dKY == d.ky)) &&
  (!o.isConv || stridesOk o) &&
  (!o.planar || (let w := o.outW d.inW; let h := o.outH d.inH
    stat dOX (if o.winograd then cdiv w 2 else w) && stat dOY (if o.winograd then cdiv h 2 else h))) &&
  (!(o.isPool || o.isArgmax) || (o.l.level dIC).isNone) &&
  (!o.isArgmax || ((o.l.level dKX).isNone && (o.l.level dKY).isNone && ext dOC == d.ncls + 1 && d.param1 % 256 ≤ d.ncls)) &&
  (!(o.isRowFn && 0x10 ≤ d.fn) || ext dIC ≤ 4096)

/-- R193 for a pair and its P2. -/
def pairOk (p1 p2 : Oper) : Bool :=
  let n1 := p1.bound dOC
  let n2 := p2.bound dOC
  p2.isMat && isFn p1.d.fn && n1 ≤ 4096 && p1.q.out == p2.q.act && cdiv n1 32 + cdiv n2 32 ≤ 64 &&
  64 * p1.l.abufBase + 2 * p1.aSlot p1.t1 + pairArea p1.q.out n1 ≤ 524288

/-! ### Rink programs -/

/-- A rink program header (R260). -/
structure RinkProg where
  version : Nat
  nGroups : Nat
  roundCells : Nat
  groups : Nat
  inArea : Nat
  inPr : Nat
  inPc : Nat
  inStride : Nat
  inNbuf : Nat
  fullSem : Nat
  freeSem : Nat
  clean : Bool
  deriving DecidableEq, Repr

/-- The header at a byte address. -/
def parseProg (rd : Reader) (a : Nat) : RinkProg :=
  let b := rd a 64
  { version := le b 0 1, nGroups := le b 1 1, roundCells := le b 2 2, groups := le b 4 4 % 2 ^ 17 * 64
    inArea := le b 8 4 % 2 ^ 23, inPr := le b 0xC 4 % 2 ^ 23, inPc := le b 0x10 4 % 2 ^ 23
    inStride := le b 0x14 4 % 2 ^ 23, inNbuf := le b 0x14 4 / 2 ^ 24 % 4 + 1, fullSem := le b 0x18 1, freeSem := le b 0x19 1
    clean := le b 4 4 < 2 ^ 17 && le b 8 4 < 2 ^ 23 && le b 0xC 4 < 2 ^ 23 && le b 0x10 4 < 2 ^ 23 &&
      bits (le b 0x14 4) 23 23 == 0 && le b 0x14 4 < 2 ^ 26 && allZero b 0x1A 38 }

/-- A halo entry (R272). -/
structure HaloEnt where
  area : Nat
  bstride : Nat
  nbuf : Nat
  pr : Nat
  pc : Nat
  width : Nat
  planes : Nat
  rows : Nat
  h : Nat
  b : Nat
  fill : Nat
  fillConst : Nat
  inSem : Nat
  outSem : Nat
  rxbuf : Nat
  clean : Bool
  deriving DecidableEq, Repr

def parseHalo (b : List Byte) : HaloEnt :=
  { area := le b 0 4 % 2 ^ 23, bstride := le b 4 4 % 2 ^ 23, nbuf := le b 4 4 / 2 ^ 24 % 4 + 1, pr := le b 8 4 % 2 ^ 23
    pc := le b 0xC 4 % 2 ^ 23, width := le b 0x10 2, planes := le b 0x12 2, rows := le b 0x14 1, h := le b 0x15 1
    b := le b 0x16 1, fill := le b 0x17 1, fillConst := le b 0x18 2, inSem := le b 0x1A 1, outSem := le b 0x1B 1
    rxbuf := le b 0x1C 4 % 2 ^ 23
    clean := le b 0 4 < 2 ^ 23 && le b 4 4 < 2 ^ 26 && bits (le b 4 4) 23 23 == 0 && le b 8 4 < 2 ^ 23 && le b 0xC 4 < 2 ^ 23 &&
      le b 0x1C 4 < 2 ^ 23 }

/-- A carry entry (R277). -/
structure CarryEnt where
  area : Nat
  bstride : Nat
  nbuf : Nat
  pr : Nat
  pc : Nat
  planes : Nat
  rowBytes : Nat
  c : Nat
  hrows : Nat
  fill : Nat
  inSem : Nat
  outSem : Nat
  fillConst : Nat
  store : Nat
  clean : Bool
  deriving DecidableEq, Repr

def parseCarry (b : List Byte) : CarryEnt :=
  { area := le b 0 4 % 2 ^ 23, bstride := le b 4 4 % 2 ^ 23, nbuf := le b 4 4 / 2 ^ 24 % 4 + 1, pr := le b 8 4 % 2 ^ 23
    pc := le b 0xC 4 % 2 ^ 23, planes := le b 0x10 2, rowBytes := le b 0x12 2, c := le b 0x14 1, hrows := le b 0x15 1
    fill := le b 0x16 1, inSem := le b 0x17 1, outSem := le b 0x18 1, fillConst := le b 0x1A 2, store := le b 0x1C 4 % 2 ^ 23
    clean := le b 0 4 < 2 ^ 23 && le b 4 4 < 2 ^ 26 && bits (le b 4 4) 23 23 == 0 && le b 8 4 < 2 ^ 23 && le b 0xC 4 < 2 ^ 23 &&
      allZero b 0x19 1 && le b 0x1C 4 < 2 ^ 23 }

/-- The stage program of a core in a group: address, instructions, start_pc (R261). -/
structure StageRef where
  addr : Nat
  n : Nat
  start : Nat
  clean : Bool
  deriving DecidableEq, Repr

/-- A group descriptor with its tables (R261). -/
structure Group where
  mask : Nat
  nHalo : Nat
  nCarry : Nat
  semTbl : Nat
  halos : List HaloEnt
  carries : List CarryEnt
  stages : List StageRef
  clean : Bool
  deriving DecidableEq, Repr

/-- Group g of the program whose groups lie at an address. -/
def parseGroup (rd : Reader) (groups g : Nat) : Group :=
  let b := rd (groups + 128 * g) 128
  let ht := le b 8 4 % 2 ^ 18 * 32
  let ct := le b 0xC 4 % 2 ^ 18 * 32
  { mask := le b 0 1, nHalo := le b 1 1, nCarry := le b 2 1, semTbl := le b 4 4 % 2 ^ 17 * 64
    halos := (List.range (min (le b 1 1) 8)).map fun i => parseHalo (rd (ht + 32 * i) 32)
    carries := (List.range (min (le b 2 1) 8)).map fun i => parseCarry (rd (ct + 32 * i) 32)
    stages := (List.range 8).map fun c =>
      let w := le b (0x10 + 8 * c) 8
      { addr := w % 2 ^ 17 * 64, n := bits w 47 32, start := bits w 55 48, clean := bits w 31 17 == 0 && bits w 63 56 == 0 }
    clean := allZero b 3 1 && le b 4 4 < 2 ^ 17 && le b 8 4 < 2 ^ 18 && le b 0xC 4 < 2 ^ 18 && allZero b 0x50 48 }

/-- Core c takes part in the group. -/
def Group.has (g : Group) (c : Nat) : Bool := bit g.mask c

/-- The instruction words of a stage program. -/
def stageWords (rd : Reader) (r : StageRef) : List Nat := (List.range r.n).map fun i => le (rd (r.addr + 8 * i) 8) 0 8

/-- Opcode, waits, posts and argument of an instruction (R175). -/
def iOp (w : Nat) : Nat := bits w 63 58
def iWaitEn (w : Nat) : Bool := bit w 57
def iPostEn (w : Nat) : Bool := bit w 56
def iWaitSem (w : Nat) : Nat := bits w 55 50
def iPostSem (w : Nat) : Nat := bits w 49 44
def iArg (w : Nat) : Nat := bits w 39 0
/-- LOOP's counter, distance and count (R176). -/
def loopCtr (w : Nat) : Nat := bits w 24 24
def loopDist (w : Nat) : Nat := bits w 23 16
def loopCount (w : Nat) : Nat := bits w 15 0

/-- One instruction alone passes R176. -/
def instrOk (i w : Nat) : Bool :=
  let unused := match iOp w with
    | 1 => bits w 39 17
    | 3 => bits w 39 5
    | 4 => bits w 39 25
    | _ => bits w 39 0
  iOp w ≤ 6 && bits w 43 40 == 0 && unused == 0 &&
  (iOp w != 4 || (1 ≤ loopDist w && loopDist w ≤ i && 1 ≤ loopCount w))

/-- The LOOPs of a program as (place, first instruction of the body, counter). -/
def loopsOf (ws : List Nat) : List (Nat × Nat × Nat) :=
  (ws.zipIdx.filter fun p => iOp p.1 == 4).map fun p => (p.2, p.2 - loopDist p.1, loopCtr p.1)

/-- A stage program passes R176: the body of a LOOP at i is the d instructions before it. -/
def stageOk (ws : List Nat) : Bool :=
  let ls := loopsOf ws
  let inside := fun (o l : Nat × Nat × Nat) => decide (o.2.1 ≤ l.1 ∧ l.1 < o.1)
  (ws.zipIdx.all fun p => instrOk p.2 p.1) &&
  (ls.all fun o => ls.all fun l => !inside o l || (l.2.2 != o.2.2 && decide (o.2.1 ≤ l.2.1))) &&
  -- the outer body may not begin inside the body of a LOOP that lies beyond it
  (ls.all fun o => ls.all fun l => !(decide (o.1 < l.1) && decide (l.2.1 ≤ o.1) && decide (o.2.1 < l.2.1))) &&
  (ls.all fun o => ls.all fun l => ls.all fun m => !(inside o l && inside l m))

/-- A rink program passes R262 with its groups. -/
def progOk (rd : Reader) (p : RinkProg) : Bool :=
  let gs := (List.range (min p.nGroups 16)).map (parseGroup rd p.groups)
  let lim0 := fun n => match gs with | g :: _ => le (rd (g.semTbl + 64 + n) 1) 0 1 | [] => 0
  let semOk := fun n => n < 64 && lim0 n != 0
  (p.version == 1 && 1 ≤ p.nGroups && p.nGroups ≤ 16 && p.clean && (p.nGroups == 1 || (1 ≤ p.roundCells && p.roundCells ≤ 64))) &&
  (p.groups + 128 * p.nGroups ≤ spadBytes && semOk p.fullSem && semOk p.freeSem) &&
  gs.all fun g =>
    (g.clean && bit g.mask 0 && g.nHalo ≤ 8 && g.nCarry ≤ 8 && g.semTbl + 128 ≤ spadBytes) &&
    ((List.range 64).all fun n => le (rd (g.semTbl + n) 1) 0 1 ≤ le (rd (g.semTbl + 64 + n) 1) 0 1) &&
    (g.halos.all fun e => e.clean && 1 ≤ e.width && e.width ≤ 4096 && 1 ≤ e.planes && e.planes ≤ 4096 && 1 ≤ e.rows &&
      1 ≤ e.h && e.h ≤ 16 && (e.b == 1 || e.b == 2) && e.fill ≤ 2 && semOk e.inSem && semOk e.outSem &&
      e.area + (e.nbuf - 1) * e.bstride + (e.planes - 1) * e.pc + (e.rows - 1) * e.pr + (e.width + 2 * e.h) * e.b ≤ spadBytes &&
      e.rxbuf + 4 * (ru64 (e.rows * e.planes * e.h * e.b) + 64) ≤ spadBytes) &&
    (g.carries.all fun e => e.clean && 1 ≤ e.planes && e.planes ≤ 4096 && 1 ≤ e.rowBytes && e.rowBytes ≤ e.pr && 1 ≤ e.c &&
      e.c ≤ 32 && e.c ≤ e.hrows && e.fill ≤ 1 && semOk e.inSem && semOk e.outSem &&
      e.area + (e.nbuf - 1) * e.bstride + (e.planes - 1) * e.pc + (e.hrows + e.c - 1) * e.pr + e.rowBytes ≤ spadBytes) &&
    ((List.range 8).all fun c => match g.stages[c]? with
      | some r => !g.has c || (r.clean && 1 ≤ r.n && r.n ≤ 256 && r.start < r.n && r.addr + 8 * r.n ≤ spadBytes)
      | none => true)

/-- The stage of a program that core c of group g runs (R421). -/
def stageNo (g c : Nat) : Nat := 8 * g + c

/-- The operators that a stage program names: addresses in 64-byte units. -/
def opsOf (ws : List Nat) : List Nat := (ws.filter fun w => iOp w == 1).map fun w => iArg w % 2 ^ 17

end Sys2Proof.Machine
end

