-- ==== Sys2Proof/Machine/State.lean ====
section
/-! DEFINITION. The state of the 9160 as plain data: everything the spec gives the machine, and the queue of waiting
commands. Register words live in ONE table, `regs`, whichever page they belong to; the structures below hold what no
register shows. Every table keyed by number lists only entries that differ from their reset value, keys rising. -/

namespace Sys2Proof.Machine

/-- A finite table from numbers to values, keys strictly rising, entries equal to the default left out. -/
abbrev Tab (α : Type) := List (Nat × α)

/-- Why the machine stops. -/
inductive Fault where
  /-- An access named beyond the end of its BAR: no such address exists (R28, R500). Raised by REGISTER_WRITE,
  REGISTER_READ, UNANSWERED_ACCESS and BAR2_ACCESS. Safe: the hardware has no such access. -/
  | addressOutsideBar
  deriving DecidableEq, Repr

/-- Why a command is refused. -/
inductive Refusal where
  /-- Raised by `exec` for a command that has no meaning yet. Safe: the machine stops. -/
  | notModelled (mnemonic : String)
  deriving DecidableEq, Repr

/-- One queued marker request (R547): `enc` for the encoder mode. -/
structure MarkerReq where
  enc : Bool
  target : Nat
  deriving DecidableEq, Repr

/-- One marker's state beside its registers (R547 to R549): the queue, oldest first, and the elapsed timebase at which
the pulse ends while the output is active. -/
structure MarkerSt where
  queue : List MarkerReq
  activeEnd : Option Nat
  deriving DecidableEq, Repr

/-- Timebase, servo, encoders, markers and pins (R536 to R553). Times are in units of 2^-32 ns. -/
structure TimeSt where
  /-- The timebase with its 16 fraction and 16 guard bits (R536). -/
  now : Nat
  /-- Elapsed timebase: the sum of the increments since device reset (R637). -/
  elapsed : Nat
  /-- S of the servo (R540), in units of 2^-32 ns. -/
  servoS : Int
  /-- y at the last 64 edges spent in LOCKED, newest first (R542). -/
  drift : List Int
  /-- Elapsed timebase of the latest accepted PPS edge (R539). -/
  ppsLast : Option Nat
  /-- Elapsed timebase from which PPS loss is counted (R541). -/
  ppsSince : Nat
  /-- Consecutive accepted edges with |e| ≤ lock_ns in ACQUIRE (R541). -/
  inLock : Nat
  /-- Elapsed timebase at the start of the latest holdover (R541). -/
  holdStart : Nat
  /-- Accepted levels of the encoder inputs: bit 2n is A of encoder n, bit 2n + 1 is B (R544). -/
  encLevels : Nat
  /-- Bit p: the level that the outside gives general-purpose pin p; 0 where nothing drives it, by the pull-down (R553, R630, log 169). -/
  gpioExt : Nat
  markers : Tab MarkerSt
  deriving DecidableEq, Repr
/-- A host request that waits for an exit from Chalet or Off-season (R570): a register access, an access through BAR2, or a
configuration write of the function's power state. -/
inductive HeldReq where
  | reg (write : Bool) (bar : Bar) (addr bytes v : Nat)
  | bar2 (write : Bool) (off : Nat) (data : List Byte) (len : Nat) (uncorrectable : Bool)
  | d3 (hot : Bool)
  deriving DecidableEq, Repr


/-- The power sequencer, rails and thermal state beside the PW_ and CK_ registers (R566 to R576, R625 to R627). -/
structure PowerSt where
  /-- The deepest state whose entry steps have begun (R572). -/
  deepest : Nat
  /-- Consecutive comparisons below thr_c − hyst_c (R574). -/
  coolCount : Nat
  /-- The TRIP_N output is low (R626). -/
  trip : Bool
  /-- The SUPPLY_EN output (R571). -/
  supplyEn : Bool
  /-- The PWR_OK input (R627). -/
  pwrOk : Bool
  /-- Elapsed timebase of the wake from Off-season that waits for PWR_OK (R627). -/
  wakeAt : Option Nat
  /-- Host requests that wait for the exit that they started, oldest first (R570). -/
  heldReqs : List HeldReq
  /-- Elapsed timebase until which memories lost in a state are scrubbed after the exit (R569). -/
  scrubUntil : Nat
  /-- Elapsed timebase at which the last activity ended (R567). -/
  idleSince : Nat
  /-- Cycles of the Wax oscillator per millisecond after its latest trim (R558). -/
  oscTrim : Nat
  deriving DecidableEq, Repr

/-- The domain side of resilience beside the PW_DOM_ registers (R415, R418): per domain, the elapsed times at which it left FENCED for
RESETTING in the last 3,600 s, newest first, and the start of the event window. -/
structure DomainSt where
  resetTimes : List Nat
  winStart : Nat
  deriving DecidableEq, Repr

/-- Wax beside the WX_ registers (R583 to R592). -/
structure WaxSt where
  /-- The seven wax sets of CAL, codes 0 to 119 each; empty when none is loaded (R584). -/
  sets : List (List Nat)
  /-- The newest trim set, and the codes that the units have in force: 184 codes each. -/
  newest : List Nat
  inForce : List Nat
  /-- Units that have not yet taken the newest set: channel c is c, D-PHY port p is 8 + p, PLL i is 16 + i, the offsets are 48
  (R591). -/
  waiting : List Nat
  /-- A run is due at the first comparison after an exit (R587). -/
  due : Bool
  /-- Elapsed timebase at which the latest run completed. -/
  doneAt : Option Nat
  deriving DecidableEq, Repr

/-- A command taken from a submission ring and not yet answered (R509, R511, R518). -/
structure HeldReply where
  ring : Nat
  /-- Its frame: header and body. -/
  cmd : List Byte
  /-- Ks of its session as the frame was taken; empty where the reply carries a zero tag. -/
  key : List Byte
  /-- The reply frame that waits for the link; none while the command runs. -/
  reply : Option (List Byte)
  /-- The ring was disabled or reset since: no reply is written (R511). -/
  dropped : Bool
  deriving DecidableEq, Repr

/-- The PCI Express endpoint and the rings beside the PX_ registers (R498 to R519). -/
structure LinkSt where
  /-- The link is in L0 or L1. -/
  up : Bool
  /-- The function is in D3hot. -/
  d3hot : Bool
  /-- Bit v: vector v asserts (R44, R45); DV_IRQ_PEND0 and DV_IRQ_PEND1 show bits 0 to 33 (R48). -/
  irqLevel : Nat
  /-- The MSI-X pending bit array (R46, R518). -/
  pba : Nat
  /-- Messages sent, by vector (R46). -/
  msiSent : Tab Nat
  /-- BAR2's size as a power of two (R500). -/
  bar2Log2 : Nat
  /-- Poisoned writes reported through AER (R499). -/
  aerPoisoned : Nat
  /-- A reset of R519 held until READY (R609). -/
  heldReset : Bool
  /-- Commands taken and not yet answered, oldest first. -/
  held : List HeldReply
  /-- rec_no of the next fault record (R512). -/
  recNo : Nat
  deriving DecidableEq, Repr

/-- A collection in progress (R603): the timebase of its snapshot, where the dump goes, and the command ring that waits
for it (R600). -/
structure Collection where
  snapNs : Nat
  addr : Nat
  toGddr : Bool
  reply : Option Nat
  deriving DecidableEq, Repr

/-- The counters beside their registers (R598 to R605). -/
structure CntSt where
  /-- Writes to PC_CNTi_LO held until PC_CNTi_HI is written, plus 1, by address (R598). -/
  heldLo : Tab Nat
  /-- Upper halves latched by a read of a LO register, by the address of the LO register, plus 1 (R598). -/
  latchHi : Tab Nat
  /-- Cores that take a PC sample at the next instruction they issue (R604). -/
  samplePend : List Nat
  collect : Option Collection
  /-- Bytes counted in the present window of each bandwidth monitor (R605). -/
  bwBytes : Tab Nat
  /-- Elapsed timebase at which the present window of each monitor started (R605). -/
  bwStart : Tab Nat
  deriving DecidableEq, Repr

/-- Statistics gathered over a stripe or a group (R107 to R109): histogram by 256 × channel + bin, zone sums and counts
by 128 × channel + 16 × band + zone. -/
structure StatAcc where
  firstSeq : Nat
  firstStamp : Nat
  lastStamp : Nat
  samples : Nat
  dyn : Nat
  unresolved : Nat
  clip : Nat
  stripes : Nat
  hist : Tab Nat
  zoneSum : Tab Nat
  zoneCnt : Tab Nat
  deriving DecidableEq, Repr

/-- A stripe that is open (R69 to R79). -/
structure OpenStripe where
  /-- Its number floor(i / H) by effective line index (R68). -/
  idx : Nat
  seq : Nat
  /-- Its buffer; none when the stripe is lost (R79, R641). -/
  buf : Option Nat
  /-- Rows written, latest first. -/
  rows : List Nat
  /-- The stamp of row 0, or derived from the first line received (R77). -/
  stamp0 : Nat
  lastStamp : Nat
  enc0 : Nat
  hasPad : Bool
  nShort : Nat
  nLong : Nat
  nCrc : Nat
  nShape : Nat
  /-- The stage registers' words in force for the stripe (R105). -/
  stage : List Nat
  stat : StatAcc
  /-- FE_STRM_TAP as it stood at the first line, when the stripe is tapped (R110). -/
  tap : Option Nat
  /-- Samples at the tap point of the rows received, by row. -/
  tapRows : List (Nat × List Nat)
  /-- Codes already posted and charged to the stripe (R74). -/
  posted : List Nat
  deriving DecidableEq, Repr

/-- A stripe handed to Slalom, closed or lost (R65, R69, R79, R284). -/
structure StripeInfo where
  stream : Nat
  seq : Nat
  lost : Bool
  buf : Nat
  /-- FE_STRM_GEOM, FE_STRM_STORE and FE_STRM_BUF with which the stream was enabled. -/
  geom : Nat
  store : Nat
  bufWord : Nat
  stamp : Nat
  enc0 : Nat
  hasPad : Bool
  /-- Timebase at the close. -/
  closeNs : Nat
  /-- Job slots that have not yet taken it into a set. -/
  waiting : List Nat
  deriving DecidableEq, Repr

/-- The configuration words with which a stream was enabled (R64, R642). -/
structure StrmCfg where
  ctrl : Nat
  geom : Nat
  frame : Nat
  store : Nat
  buf : Nat
  deriving DecidableEq, Repr

/-- One stream beside its registers (R61 to R79, R105 to R118). -/
structure StrmSt where
  /-- The stream runs, with this configuration. -/
  cfg : Option StrmCfg
  /-- The counting source's next index (R68). -/
  count : Nat
  /-- The number of a Line Start received since the stream's previous long packet (R68). -/
  lineNo : Option Nat
  /-- The raw index of the previous accepted line (R68). -/
  lastIdx : Option Nat
  /-- What is added to a raw index for the effective index (R72, realignment). -/
  idxOff : Int
  /-- A Frame Start has realigned: the next line begins a new stripe (R72). -/
  realign : Bool
  /-- The stripe number of the first line accepted since enable (R72). -/
  firstIdx : Option Nat
  /-- Stripe numbers that have closed since enable. -/
  closedSet : List Nat
  /-- Stripe numbers that were lost since enable (R79, R641). -/
  lostSet : List Nat
  nextSeq : Nat
  /-- Open stripes, most recently opened first. -/
  opened : List OpenStripe
  /-- Free buffers in the order in which they are taken (R79). -/
  free : List Nat
  /-- Stage values of the previous stripe (R106). -/
  lastStage : Option (List Nat)
  /-- Sequence number and stored row H − 1 of the previous closed stripe (R73). -/
  prevRow : Option (Nat × List Nat)
  /-- Codes posted and header counts that are charged to the next stripe to open (R74). -/
  posted : List Nat
  pendShort : Nat
  pendLong : Nat
  pendCrc : Nat
  pendShape : Nat
  /-- 0 before the first frame packet, 1 after a Frame Start, 2 after a Frame End (R72). -/
  framePkt : Nat
  frameLines : Nat
  /-- The next line is the first after a Frame Start (R78). -/
  firstLine : Bool
  group : Option StatAcc
  deriving DecidableEq, Repr

/-- A table-load copy in progress (R104). -/
structure TableCopy where
  src : Nat
  fromGddr : Bool
  units : Nat
  dst : Nat
  deriving DecidableEq, Repr

/-- The front-end beside the FE_ registers. -/
structure FeSt where
  strm : Tab StrmSt
  /-- Stripes handed to Slalom and not yet taken into a set, oldest first. -/
  handed : List StripeInfo
  tld : Option TableCopy
  deriving DecidableEq, Repr
/-- A cell record as a rink holds it (R267), with what Slalom passes beside it (R287, R376) and what the rink reports. -/
structure CellRec where
  seq : Nat
  stream : Nat
  plan : Nat
  pos : Nat
  x0 : Nat
  width : Nat
  valid : Nat
  left : Nat
  right : Nat
  gate : Nat
  /-- flags [0]: the cell is flagged. -/
  flagged : Bool
  /-- The scale mode of R287. -/
  firstPass : Bool
  /-- The weight bank latched with the cell's set (R376). -/
  bank : Nat
  set : Nat
  /-- The cell entry's number in the plan. -/
  cell : Nat
  /-- 0 primary, 1 replica copy, 2 re-run, 3 re-run of a replica copy, 4 spot copy. -/
  kind : Nat
  /-- The stripe it reads: buffer, FE_STRM_GEOM, FE_STRM_STORE and FE_STRM_BUF. -/
  buf : Nat
  geom : Nat
  store : Nat
  bufWord : Nat
  /-- Its input copy has posted in_full_sem (R266). -/
  copied : Bool
  /-- Cores that have passed CELL_END for it in the group loaded (R268). -/
  passed : List Nat
  /-- The miss bit (R304). -/
  miss : Bool
  /-- Signatures by stage (R424). -/
  sigs : List (Nat × Nat)
  deriving DecidableEq, Repr

/-- The slots of one operand at one tile level of a running operator (R322, R323): distinct tiles that the walker has begun
to use, tiles whose fetch has started, tiles held as (tile, slot, filled), and the tile in use. The counts themselves are
CL_SEM and CL_T2SEMc. -/
structure Slots where
  begun : List Nat
  started : List Nat
  held : List (Nat × Nat × Bool)
  cur : Option Nat
  deriving DecidableEq, Repr

/-- An accumulator tile that an operator holds (R171): its number, whose output it is, and the reduction steps added. -/
structure AccTile where
  num : Nat
  phase : Nat
  oc : Nat
  ox : Nat
  oy : Nat
  /-- The element position of the Winograd domain, 0 to 15. -/
  el : Nat
  issued : Nat
  added : Nat
  deriving DecidableEq, Repr

/-- A T0 tile in the array (R170): its accumulator tile, and for each pass the weight of the column registers' least
significant bit and their sums by position and column. -/
structure ArrTile where
  acc : Nat
  passes : List (Int × List (List Int))
  /-- Positions in bounds. -/
  live : List Bool
  deriving DecidableEq, Repr

/-- A pixel that ARGMAX has classified (R251): column, row, class and score. -/
structure Pixel where
  x : Nat
  y : Nat
  cls : Nat
  score : Nat
  deriving DecidableEq, Repr

/-- An operator in flight in a core (R179). -/
structure OpSt where
  desc : Nat
  o : Oper
  /-- P2 of a fused pair. -/
  p2 : Option Oper
  /-- The number of its record in the round, and the record as it issued. -/
  recNo : Nat
  rcd : CellRec
  /-- Actual extents by dimension, and P2's. -/
  ext : List Nat
  ext2 : List Nat
  post : Option Nat
  regs : QBank
  regs2 : QBank
  /-- T1 visits taken, the visit in progress, and T0 steps made in it. -/
  taken : List Nat
  visit : Option Nat
  step : Nat
  /-- The walk has ended: the last T0 tile has entered. -/
  walked : Bool
  /-- It ended early (R181). -/
  early : Bool
  act1 : Slots
  wt1 : Slots
  act2 : Slots
  wt2 : Slots
  accs : List AccTile
  arr : List ArrTile
  /-- Inputs that a row-unit operator has taken, by element, as exact numbers. -/
  ins : List (Nat × Dy)
  pix : List Pixel
  /-- Smallest and largest value of each output row so far, and row exponents in force (R151, R160). -/
  rows : List (Nat × Dy × Dy)
  rowExp : List (Nat × Int)
  /-- Output tiles drained of each row of tiles, by twice the row's start in OY plus the phase. -/
  drained : List (Nat × Nat)
  /-- Blocks of a fused pair whose intermediate is in place, and its row exponents (R192). -/
  blocks : Nat
  interExp : List Int
  /-- Its weight tiles come by unicast for the rest of the operator (R335). -/
  unicast : Bool
  deriving DecidableEq, Repr

/-- A core beside its registers (R166). Weight buffer, activation buffer and row-unit buffer are byte memories; the
accumulator memory is words, tile × 1,024 + position × 32 + channel. -/
structure CoreSt where
  imem : Tab Nat
  loop0 : Nat
  loop1 : Nat
  /-- CELL_ENDs in the round (R263). -/
  ends : Nat
  /-- The running signature of the cell (R424). -/
  crc : Nat
  active : QBank
  cur : Option OpSt
  drain : Option OpSt
  wbuf : List Host.Cell
  abuf : List Host.Cell
  rowbuf : List Host.Cell
  acc : Tab Nat
  rowMiss : Tab Nat
  /-- (descriptor, code) pairs posted in the stripe. -/
  posted : List (Nat × Nat)
  deriving DecidableEq, Repr

/-- Halo columns on their way to a rink (R273), or held in one of its receive slots: the sender with its node, the entry,
the side of the receiver that they are for, the tag and the columns. -/
structure HaloMsg where
  node : Nat
  src : Nat
  entry : Nat
  right : Bool
  seq : Nat
  stream : Nat
  col : Nat
  data : List Byte
  deriving DecidableEq, Repr

/-- The halo unit at one entry: cells finished, whether in_sem is taken for the next, sides sent and margins done for it, and
the credits left and right (R273). -/
structure HaloPos where
  done : Nat
  begun : Bool
  sentL : Bool
  sentR : Bool
  doneL : Bool
  doneR : Bool
  creditL : Nat
  creditR : Nat
  deriving DecidableEq, Repr

/-- A rink beside its registers. -/
structure RinkSt where
  /-- The job slot that holds the rink, and the rink's logical number. -/
  job : Option Nat
  logical : Nat
  /-- Cell records, oldest first: those of the round, then later ones. -/
  recs : List CellRec
  /-- Records of the round that have left the queue (R268). -/
  left : Nat
  /-- The set that the rink works on, and the records of it that earlier rounds have finished. -/
  set : Option Nat
  before : Nat
  /-- Cells of that set for this rink: those released and those still to be released. -/
  total : Nat
  /-- The group whose stage programs are resident (R265). -/
  resident : Option Nat
  /-- Input copies made in the round, and the input buffer index (R266, R327). -/
  copies : Nat
  /-- Of the in_full_sem posts, those that core 0 has waited on (R325). -/
  taken : Nat
  halo : List HaloPos
  carry : List Nat
  /-- Halo columns on their way to this rink, oldest first, and those in its receive slots. -/
  inbound : List HaloMsg
  rx : List HaloMsg
  /-- Credits on their way back, as (entry, right). -/
  credits : List (Nat × Bool)
  /-- The stage to which a scrub is still owed before IDLE (R264). -/
  scrub : Bool
  deriving DecidableEq, Repr

/-- A transfer of a Chairlift (R320): the core, the operand, the tile level, the tile and its slot, and the bytes it moves. -/
structure Transfer where
  core : Nat
  weight : Bool
  level : Nat
  tile : Nat
  slot : Nat
  bytes : Nat
  /-- Cancelled: what it reads is not written (R326). -/
  dead : Bool
  /-- The multicast group that delivers it (R331). -/
  via : Option Nat
  deriving DecidableEq, Repr

/-- A Gondola run of one group (R332): weight bank, the operator's weight tiles in order by address, receivers attached with the
number of the next tile each takes, and the receivers detached in it. -/
structure GondolaRun where
  bank : Nat
  tiles : List Nat
  attached : List (Nat × Nat)
  detached : List Nat
  deriving DecidableEq, Repr

/-- One multicast group (R329, R330, R356). -/
structure GondolaGroup where
  job : Nat
  key : Nat
  logical : Nat
  mapped : Nat
  runs : Nat
  run : Option GondolaRun
  deriving DecidableEq, Repr

/-- A window write accepted and not yet in memory (R349). -/
structure WinWrite where
  win : Nat
  off : Nat
  data : List Byte
  deriving DecidableEq, Repr

/-- A DMA slot in progress (R341, R342): the slot, whether its trigger is met, and the bytes of its writes to a window that are
acknowledged. -/
structure DmaRun where
  slot : Nat
  started : Bool
  bytes : Nat
  deriving DecidableEq, Repr

/-- Chairlifts, Gondola, DMA channels and windows beside their registers. -/
structure MoveSt where
  /-- Outstanding transfers of each Chairlift, oldest first, by PG_ID.instance. -/
  lifts : Tab (List Transfer)
  gondola : Tab GondolaGroup
  dma : Tab DmaRun
  /-- Accepted window writes, oldest first. -/
  winq : List WinWrite
  deriving DecidableEq, Repr

/-- A data flit that waits for its ack (R524): its number, the packet it carries, and how often it has been replayed. -/
structure TzFlit where
  seq : Nat
  pkt : List Byte
  replays : Nat
  deriving DecidableEq, Repr

/-- A Tuzer port beside its registers (R523 to R529). Credits are in 64-byte units by class. -/
structure TzPortSt where
  txSeq : Nat
  rxSeq : Nat
  /-- Flits are discarded until the missing one arrives (R524). -/
  hunting : Bool
  unacked : List TzFlit
  /-- Packets that wait to leave, oldest first. -/
  txq : List (List Byte)
  credits : List Nat
  /-- Bytes of a packet received in part. -/
  stream : List Byte
  /-- Packets received and not yet passed on, oldest first. -/
  rxq : List (List Byte)
  /-- WRITEs sent that have no WRITE_RSP: tag and DMA channel (R527, R529). -/
  writes : List (Nat × Nat)
  /-- Elapsed timebase of the latest good flit, and of the entry to the training state in progress. -/
  lastGood : Nat
  since : Nat
  /-- A nak has been received and not yet answered with a replay; elapsed timebase from which the ack is awaited (R524). -/
  nakd : Bool
  lastAck : Nat
  deriving DecidableEq, Repr

/-- A rink entry of a plan (R291). -/
structure PlanRink where
  cells : Nat
  stages : Nat
  groups : Nat
  interval : Nat
  busy : Nat
  sumBase : Nat
  sumStride : Nat
  sumNbuf : Nat
  partner : Nat
  deriving DecidableEq, Repr

/-- A cell entry of a plan (R291). -/
structure PlanCell where
  piste : Nat
  rink : Nat
  pos : Nat
  x0 : Nat
  width : Nat
  gateOff : Nat
  left : Nat
  right : Nat
  replica : Bool
  deriving DecidableEq, Repr

/-- A plan (R291), with its depths of the replica table (R421). -/
structure Plan where
  k : Nat
  div : Nat
  imageBytes : Nat
  imageBase : Nat
  imageStride : Nat
  gateMax : Nat
  rinks : List PlanRink
  cells : List PlanCell
  depth : List Nat
  spotDepth : Nat
  spotN : Nat
  deriving DecidableEq, Repr

/-- A piste of the piste table (R290). -/
structure Piste where
  stream : Nat
  ring : Nat
  shift : Nat
  sx : Nat
  sy : Nat
  deriving DecidableEq, Repr

/-- A marker rule (R313). -/
structure MarkerRule where
  marker : Nat
  cls : Nat
  mode : Nat
  minPx : Nat
  minScore : Nat
  offset : Int
  deriving DecidableEq, Repr

/-- A crop rule (R313). -/
structure CropRule where
  cls : Nat
  w : Nat
  h : Nat
  minScore : Nat
  minPx : Nat
  deriving DecidableEq, Repr

/-- The plan block of a job (R288). -/
structure PlanBlock where
  domains : Nat
  rerunEn : Bool
  rerunMax : Nat
  skew : Nat
  period : Nat
  cropMax : Nat
  plans : List Plan
  pistes : List Piste
  markers : List MarkerRule
  crops : List CropRule
  deriving DecidableEq, Repr

/-- One layer of an adaptation descriptor (R363). -/
structure AdaptLayer where
  key : Nat
  nIn : Nat
  nOut : Nat
  master : Nat
  init : Nat
  state : Nat
  deriving DecidableEq, Repr

/-- The adaptation descriptor (R363), and what the adapted operators give: weight format and channel-scale exponents by layer,
and layer 0's activation format and zero point. -/
structure AdaptDesc where
  batch : Nat
  capture : Bool
  actFn : Nat
  swapSteps : Nat
  capMax : Nat
  lr : Nat
  beta1 : Nat
  beta2 : Nat
  eps : Nat
  wd : Nat
  rateMax : Nat
  classMask : Nat
  layers : List AdaptLayer
  capBase : Nat
  capLog2 : Nat
  feat : Nat
  featStride : Nat
  featNbuf : Nat
  featPr : Nat
  featPc : Nat
  featRs : Nat
  bankStride : Nat
  wtFmt : List Nat
  scales : List (List Nat)
  actFmt : Nat
  actZ : Nat
  deriving DecidableEq, Repr

/-- A training sample (R368): the capture it names, its class and its weight. -/
structure Sample where
  cap : Nat
  cls : Nat
  weight : Nat
  deriving DecidableEq, Repr

/-- A step in progress (R369): its samples, and the rows already updated, by layer and row. -/
structure AdaptRun where
  batch : List Sample
  rowsDone : Nat
  deriving DecidableEq, Repr

/-- The adaptation of a job beside FE_SLM_AD registers (R360 to R382). -/
structure AdaptSt where
  desc : AdaptDesc
  samples : List Sample
  /-- Captures taken since bind (R365). -/
  caps : Nat
  run : Option AdaptRun
  /-- Timebase at which the latest step started (R369). -/
  lastStart : Option Nat
  /-- A pause waits for the step in progress (R379). -/
  pausing : Bool
  /-- The state before MOVING (R380). -/
  back : Nat
  /-- A swap is requested and waits for a free bank (R377). -/
  wantSwap : Bool
  /-- The bank passed to Slalom for the next boundary (R376), and whether a rollback put it there (R378). -/
  next : Option Nat
  rollback : Bool
  /-- The step count within swap_steps. -/
  sinceSwap : Nat
  deriving DecidableEq, Repr

/-- A member stripe of a set (R284). -/
structure Member where
  piste : Nat
  info : StripeInfo
  /-- Slalom still holds its buffer (R316). -/
  held : Bool
  /-- It is its piste's first stripe under the plan: scale mode 1 (R159). -/
  first : Bool
  deriving DecidableEq, Repr

/-- A completion report that was on time (R296): the rink it came from, its record, and what the emitter read with it (R308,
R364): the cell summary and, for a capture, the codes and the row exponent at the top pixel. -/
structure Report where
  rink : Nat
  rcd : CellRec
  summary : List Byte
  feat : List Byte
  featE : Nat
  deriving DecidableEq, Repr

/-- A re-run or spot copy (R304, R427): its rink, its gate, whether its record has entered the rink's queue, its report where that
was on time, and whether its gate has passed. -/
structure Extra where
  rink : Nat
  gate : Nat
  sent : Bool
  rep : Option Report
  passed : Bool
  deriving DecidableEq, Repr

/-- What a cell's verdict says (R307): status, flags, and the report it is made from. -/
structure Verdict where
  status : Nat
  flags : Nat
  src : Option Report
  deriving DecidableEq, Repr

/-- One cell entry of a set (R296 to R305, R425 to R428). -/
structure CellSt where
  /-- The entry's number in the plan. -/
  cell : Nat
  gate : Nat
  /-- Its record has entered its rink's queue; or it never will. -/
  released : Bool
  gone : Bool
  /-- Its stripe is lost, or a fence has taken it (R298). -/
  lost : Bool
  rep : Option Report
  /-- Its gate has passed. -/
  passed : Bool
  rerun : Option Extra
  spot : Option Extra
  /-- The verdict of the original run, held back for a re-run or a spot copy (R305, R428). -/
  held : Option Verdict
  /-- Its verdict is written or dropped, or it has none. -/
  done : Bool
  deriving DecidableEq, Repr

/-- A stripe set (R284, R285). -/
structure SetSt where
  num : Nat
  plan : Nat
  /-- Physical domain of each logical domain when the set was opened (R289, R300). -/
  bind : List Nat
  /-- The set is skipped under stripe_div (R302). -/
  skip : Bool
  /-- The row-0 stamp of the lead stripe, or the anchor where that was lost. -/
  anchor : Nat
  /-- The latest T_ref (R285), and T_ref once it is known. -/
  cap : Nat
  tref : Option Nat
  /-- sw of the first set after a switch (R301). -/
  sw : Nat
  members : List Member
  cells : List CellSt
  /-- Some of its cells have been released, with this weight bank; every cell takes scale mode 1. -/
  begun : Bool
  bank : Nat
  firstPass : Bool
  /-- Every verdict is written (R317). -/
  complete : Bool
  crops : Nat
  caps : Nat
  /-- Re-runs and spot copies by physical rink, and rinks for which GATE_MISSED was posted. -/
  reruns : Tab Nat
  missed : List Nat
  /-- The spot check picks of the set, as cell numbers (R427). -/
  spots : List Nat
  deriving DecidableEq, Repr

/-- A switch of plan that is marked (R299, R303): the boundary set and the plan. -/
structure Switch where
  boundary : Nat
  plan : Nat
  /-- A fence marked it. -/
  byFence : Bool
  deriving DecidableEq, Repr

/-- A bound job beside its Slalom page. -/
structure JobSt where
  /-- MODELS image index, owner slot and domains of JOB_LOAD. -/
  index : Nat
  owner : Nat
  domains : List Nat
  fahead : Nat
  loadBase : Nat
  progBase : Nat
  /-- Plan 0's rink images: the address of the first, their size and their distance (R613). -/
  img0 : Nat × Nat × Nat
  blk : PlanBlock
  hasReplica : Bool
  adapt : Option AdaptSt
  /-- Physical domain of each logical domain of the plan in force (R289). -/
  bind : List Nat
  nextSet : Nat
  sets : List SetSt
  /-- The first set under the plan in force (R427); the LFSR and the pick of the block in progress. -/
  planStart : Nat
  lfsr : Nat
  spotPick : Nat
  switch : Option Switch
  /-- Pistes whose first stripe under the plan in force has joined a set (R159), and pistes of which a stripe has closed or been
  lost since the job started (R617). -/
  seen : List Nat
  started : List Nat
  /-- Reports on their way from rinks (R296): the rink, the cell's place in its round and its record. -/
  reports : List (Nat × Nat × CellRec)
  /-- Cells that wait at the emitter, as (set, cell), in the order in which they became on time (R309). -/
  emits : List (Nat × Nat)
  /-- The job is stopping: its rinks are being scrubbed (R461), and the rings whose JOB_STOP waits (R615). -/
  stopping : Bool
  stopRings : List Nat
  /-- The owner's session and image digest for QUOTE. -/
  digest : List Byte
  deriving DecidableEq, Repr

/-- A verdict ring beside its registers (R310, R514 to R517): whether a block is open, its records, the key of its trailer where it
carries one, and the key for blocks to come. -/
structure VringSt where
  opened : Bool
  recs : List (List Byte)
  trailer : Option (List Byte)
  nextKey : List Byte
  deriving DecidableEq, Repr
/-- A key slot of the security complex (R435): the 64-byte key, empty when the slot is not loaded, and the loads since device
reset. -/
structure KeySlot where
  key : List Byte
  gen : Nat
  deriving DecidableEq, Repr

/-- An owner slot (R432, R444): its state and hash in OTP, and what KEYSTATE keeps for it. -/
structure OwnerSlot where
  state : Nat
  hash : List Byte
  kOwner : List Byte
  ceiling : Nat
  deriving DecidableEq, Repr

/-- A session beside its page (R448 to R451): Ks, the response registers as written (they read 0), when the challenge was drawn
and when the backoff ends, and the nonce last returned by NONCE with the time it was drawn, until it is used (R445). -/
structure SessSt where
  key : List Byte
  resp : List Nat
  challengeAt : Nat
  backoffEnd : Nat
  nonce : Option (List Byte × Nat)
  deriving DecidableEq, Repr

/-- A firmware image that runs (R438, R441): version, epoch, SVN, copy, the hash of its header, and raise_floor. -/
structure RunImage where
  ver : Nat
  epoch : Nat
  svn : Nat
  copy : Nat
  hash : List Byte
  raiseFloor : Bool
  deriving DecidableEq, Repr

/-- A quote that waits for its signature (R457, R458): the ring that asked for it. -/
structure QuoteSt where
  ring : Nat
  quote : List Byte
  deriving DecidableEq, Repr

/-- The security complex (R432 to R464): OTP, KEYSTATE, and what a device reset clears. -/
structure SecSt where
  vroot : List Byte
  dus : List Byte
  idPub : List Byte
  slots : List OwnerSlot
  /-- SVN floors of image types 1 to 4. -/
  svn : List Nat
  /-- KEYSTATE: the policy word and its counter (R447), in-band ECC off (R612), and the leaf record with the highest rec_seq, as
  rec_seq and first (R455). -/
  policy : Nat
  policyCtr : Nat
  eccOff : Bool
  leaf : Option (Nat × Nat)
  /-- The next leaf and the end of the reserved block, as SC_LEAF and SC_LEAF_RES show their low 30 bits (R454 to R457). -/
  leafNext : Nat
  leafEnd : Nat
  /-- Drawn at device reset (R434). -/
  bootSalt : List Byte
  sess : Tab SessSt
  images : List RunImage
  /-- Elapsed timebase at which stage FIRMWARE was entered (R443, R611). -/
  fwAt : Option Nat
  /-- Debug has been unlocked since reset (R464). -/
  dbgEver : Bool
  /-- Elapsed timebase of the latest identity signature, and the quotes that wait (R457). -/
  sigAt : Option Nat
  quotes : List QuoteSt
  deriving DecidableEq, Repr

/-- A record that waits in the crop area (R489): its place in the area, and its units. -/
structure CropSt where
  off : Nat
  units : Nat
  deriving DecidableEq, Repr

/-- A physical block (R479 to R483): erases, reads since erase, pages programmed, 0 good, 1 factory defect, 2 grown defect; the
partition that holds it (0 free, 1 MODELS, 2 LOG, 3 ARCHIVE, 4 a fixed area), marked for refresh, and the elapsed timebase of its
latest scan, plus 1. -/
structure BlockSt where
  erases : Nat
  reads : Nat
  pages : Nat
  bad : Nat
  owner : Nat
  marked : Bool
  scanAt : Nat
  deriving DecidableEq, Repr

/-- A job image in MODELS (R460): owner slot; envelope, public key and signature in clear; body encrypted, its tag and write
counter; and the blocks that hold it. -/
structure ModelImg where
  slot : Nat
  clear : List Byte
  ct : List Byte
  tag : List Byte
  ctr : Nat
  blocks : List Nat
  deriving DecidableEq, Repr

/-- A record in ARCHIVE (R490, R491): its header, encrypted data and tag, and the blocks that hold it. -/
structure ArcRec where
  recNo : Nat
  header : List Byte
  ct : List Byte
  tag : List Byte
  blocks : List Nat
  deriving DecidableEq, Repr

/-- The NAND store beside the NS_ registers (R470 to R497). -/
structure StoreSt where
  /-- The profile block (R472), the three firmware copies A, B and RECOVERY, and the wax sets of CAL. -/
  profile : List Byte
  fw : List (List Byte)
  cal : List (List Nat)
  models : Tab (Option ModelImg)
  arc : List ArcRec
  /-- LOG: its entries, oldest first, the number of the oldest, its blocks, oldest first, and the pages programmed since format. -/
  logs : List (List Byte)
  logFirst : Nat
  logBlks : List Nat
  logPages : Nat
  blocks : Tab BlockSt
  /-- The block open for programming in each partition. -/
  openBlk : Tab (Option Nat)
  /-- The write counter and the end of its reservation (R487). -/
  counter : Nat
  reserved : Nat
  /-- Journal records since the last checkpoint, and checkpoints written (R484); seq of each channel's directory (R478). -/
  journal : Nat
  checkpoints : Nat
  dirSeq : Tab Nat
  /-- The session whose command last filled the transfer area (R488). -/
  xferSess : Option Nat
  /-- Elapsed timebase at which the retention pass in progress started, plus 1 (R483). -/
  passStart : Nat
  /-- Records that wait in the crop area, oldest first, and the place of the next. -/
  crops : List CropSt
  cropPos : Nat
  deriving DecidableEq, Repr

/-- The whole state. -/
structure State where
  /-- Commands that wait, first in first out. -/
  pending : List Instr
  /-- Every register word that differs from its reset value, by address: a BAR0 offset, or 0x1000_0000 more for a BAR4
  offset. -/
  regs : Tab Word
  /-- WO registers written since they were re-armed (R41). -/
  woDone : List Nat
  /-- Elapsed timebase until which a page's soft reset is in progress (R35). -/
  softBusy : Tab Nat
  /-- READY has been reached since device reset (R608). -/
  readyReached : Bool
  /-- Elapsed timebase + 1 of the latest posting under each rate limit (R637). -/
  marks : Tab Nat
  /-- Host memory: outside the device; its rings and transfers live in it. -/
  host : List Host.Cell
  /-- The local GDDR6 space (R387). -/
  gddr : List Host.Cell
  /-- Stripe memory (R75). -/
  stripe : List Host.Cell
  /-- The 16 scratchpads, rink n at n × 8 MiB (R269). -/
  spad : List Host.Cell
  time : TimeSt
  power : PowerSt
  wax : WaxSt
  domains : Tab DomainSt
  link : LinkSt
  cnt : CntSt
  fe : FeSt
  /-- Cores by flat number (R5), rinks, verdict rings, and the job of each slot. -/
  cores : Tab CoreSt
  rinks : Tab RinkSt
  move : MoveSt
  jobs : Tab (Option JobSt)
  vrings : Tab VringSt
  tuzer : Tab TzPortSt
  /-- The key slots of the security complex (R435), and the rest of it. -/
  keys : Tab KeySlot
  sec : SecSt
  /-- The NAND store. -/
  store : StoreSt
  /-- The value the latest register read returned (model's own, log 11). -/
  rdata : BitVec 64
  /-- The bytes the latest memory read through BAR2 returned (model's own, log 11). -/
  rbytes : List Byte
  /-- The index of the next free value (model's own, log 8). -/
  freeCtr : Nat
  deriving DecidableEq, Repr

/-- The security complex of a device as it leaves its makers, after a device reset: what OTP and KEYSTATE hold is the device's own
(R432; log 37). -/
def SecSt.factory : SecSt where
  vroot := Config.vendorRoot
  dus := Config.deviceSecret
  idPub := Config.identityPub
  slots := (List.range 3).map fun s => ⟨Config.ownerState s, Config.ownerHash s, Config.ownerKey s, Config.ownerCeiling s⟩
  svn := (List.range 4).map Config.svnFloor
  policy := Config.keystatePolicy.1
  policyCtr := Config.keystatePolicy.2
  eccOff := Config.keystateEccOff
  leaf := Config.keystateLeaf
  leafNext := 0
  leafEnd := 0
  bootSalt := (List.range 32).map fun i => (Config.freeWord i).setWidth 8
  sess := []
  images := []
  fwAt := none
  dbgEver := false
  sigAt := none
  quotes := []

/-- The NAND store of a device as it leaves its makers: profile, firmware copies and calibration are the board's own, and the store
is not formatted (R472, R476; log 37). -/
def StoreSt.factory : StoreSt where
  profile := Config.nandProfile
  fw := [Config.firmwareCopy 0, Config.firmwareCopy 1, Config.firmwareCopy 2]
  cal := Config.waxSets
  models := []
  arc := []
  logs := []
  logFirst := 0
  logBlks := []
  logPages := 0
  blocks := []
  openBlk := []
  counter := 0
  reserved := 0
  journal := 0
  checkpoints := 0
  dirSeq := []
  xferSess := none
  passStart := 0
  crops := []
  cropPos := 0

/-- Mid-range codes for every trim, and no offsets (R583, R584): what the units hold before the first run (log 36). -/
def midTrims : List Nat :=
  List.replicate 16 16 ++ List.replicate 32 64 ++ List.replicate 40 8 ++ List.replicate 32 8 ++ List.replicate 64 0

/-- The machine right after a device reset: no register word differs from its reset value, every table is empty, every
memory lists nothing, the boot ROM is in stage ROM (R34, R434, R607, R625), and no command waits. PWR_OK is high and
SUPPLY_EN asserted (R624, R625); elapsed timebase starts at 0 (R637). The free values of the model are named in logs 8
and 11. -/
def State.reset : State where
  pending := []
  regs := []
  woDone := []
  softBusy := []
  readyReached := false
  marks := []
  host := []
  gddr := []
  stripe := []
  spad := []
  time :=
    { now := 0, elapsed := 0, servoS := 0, drift := [], ppsLast := none, ppsSince := 0, inLock := 0, holdStart := 0
      encLevels := 0, gpioExt := 0, markers := [] }
  power :=
    { deepest := 0, coolCount := 0, trip := false, supplyEn := true, pwrOk := true, wakeAt := none, heldReqs := [], scrubUntil := 0
      idleSince := 0, oscTrim := 0 }
  wax :=
    { sets := [], newest := midTrims, inForce := midTrims, waiting := [], due := false, doneAt := none }
  domains := []
  link :=
    { up := false, d3hot := false, irqLevel := 0, pba := 0, msiSent := [], bar2Log2 := 28, aerPoisoned := 0
      heldReset := false, held := [], recNo := 0 }
  cnt := { heldLo := [], latchHi := [], samplePend := [], collect := none, bwBytes := [], bwStart := [] }
  fe := { strm := [], handed := [], tld := none }
  cores := []
  rinks := []
  move := { lifts := [], gondola := [], dma := [], winq := [] }
  jobs := []
  vrings := []
  tuzer := []
  keys := []
  sec := SecSt.factory
  store := StoreSt.factory
  rdata := 0
  rbytes := []
  freeCtr := 32

end Sys2Proof.Machine
end

