-- ==== Sys2Proof/Machine/Ops.lean ====
section
/-! DEFINITION. The named operations over the tables, the registers, the memories and the free values. -/

namespace Sys2Proof.Machine

/-! ### Tables in canonical form -/

/-- The entry of a table, or its default. -/
def tabGet {α : Type} (d : Nat → α) : Tab α → Nat → α
  | [], k => d k
  | (k', v) :: t, k => if k = k' then v else tabGet d t k

/-- The table without a key. -/
def tabDel {α : Type} (k : Nat) (t : Tab α) : Tab α := t.filter fun e => e.1 != k

/-- The table with one entry set; an entry equal to its default is not listed. -/
def tabPut {α : Type} [DecidableEq α] (d : Nat → α) : Tab α → Nat → α → Tab α
  | [], k, v => if v = d k then [] else [(k, v)]
  | (k', v') :: t, k, v =>
    if k < k' then (if v = d k then (k', v') :: tabDel k t else (k, v) :: (k', v') :: t)
    else if k = k' then (if v = d k then tabDel k t else (k, v) :: t)
    else (k', v') :: tabPut d t k v

/-- Are the keys strictly rising, all of them above `lo`, and no entry equal to its default? -/
def tabWfFrom {α : Type} [DecidableEq α] (d : Nat → α) : Nat → Tab α → Bool
  | _, [] => true
  | lo, (k, v) :: t => decide (lo ≤ k) && decide (v ≠ d k) && tabWfFrom d (k + 1) t

/-- The canonical form of a table. -/
def tabWf {α : Type} [DecidableEq α] (d : Nat → α) (t : Tab α) : Bool := tabWfFrom d 0 t

/-! ### Pages -/

/-- The kinds of register page (R28, R29, R503). -/
inductive Kind where
  | dv | ppMb | ppSess | sc | feCommon | fePort | feStrm | feSlm | mxCommon | mxCh | nsCommon | nsCh
  | pxCommon | pxFault | pxCmd | pxVr | tzCommon | tzPort | clCommon | clRink | clCore | gd | dmCommon | dmCh
  | wn | wnTab | tb | ck | pw | wx | pc | rk | cr
  deriving DecidableEq, Repr

/-- Where BAR4 starts in the one register address space: a BAR0 offset stands for itself, a BAR4 offset is this much
higher. -/
def bar4 : Nat := 0x10000000

abbrev dvPage : Nat := 0
abbrev ppMbPage : Nat := 0x10000
def ppSess (i : Nat) : Nat := 0x11000 + i * 0x1000
abbrev scPage : Nat := 0x1F000
abbrev feCommonPage : Nat := 0x100000
def fePort (i : Nat) : Nat := 0x101000 + i * 0x1000
def feStrm (i : Nat) : Nat := 0x110000 + i * 0x1000
def feSlm (i : Nat) : Nat := 0x130000 + i * 0x1000
abbrev mxCommonPage : Nat := 0x200000
def mxCh (i : Nat) : Nat := 0x201000 + i * 0x1000
abbrev nsCommonPage : Nat := 0x300000
def nsCh (i : Nat) : Nat := 0x301000 + i * 0x1000
abbrev pxCommonPage : Nat := 0x400000
abbrev pxFaultPage : Nat := 0x401000
abbrev tzCommonPage : Nat := 0x500000
def tzPort (i : Nat) : Nat := 0x501000 + i * 0x1000
abbrev clCommonPage : Nat := 0x600000
abbrev gdPage : Nat := 0x601000
abbrev dmCommonPage : Nat := 0x610000
def dmCh (i : Nat) : Nat := 0x611000 + i * 0x1000
abbrev wnPage : Nat := 0x630000
def wnTab (i : Nat) : Nat := 0x631000 + i * 0x1000
abbrev tbPage : Nat := 0x700000
abbrev ckPage : Nat := 0x800000
abbrev pwPage : Nat := 0x810000
abbrev wxPage : Nat := 0x820000
abbrev pcPage : Nat := 0x900000
/-- The rink page of rink n (R28). -/
def rk (n : Nat) : Nat := 0x1000000 + n * 0x100000
/-- The page of the core with flat number k (R5, R29). -/
def cr (k : Nat) : Nat := rk (k / 8) + 0x1000 + k % 8 * 0x1000
/-- The rink Chairlift page of rink n. -/
def clRink (n : Nat) : Nat := rk n + 0x10000
/-- The core Chairlift page of the core with flat number k. -/
def clCore (k : Nat) : Nat := rk (k / 8) + 0x11000 + k % 8 * 0x1000
/-- Chairlift i as PG_ID.instance numbers them: 0 to 15 rinks, 16 + k core k (R29). -/
def clOf (i : Nat) : Nat := if i < 16 then clRink i else clCore (i - 16)
def pxCmd (i : Nat) : Nat := bar4 + i * 0x1000
def pxVr (i : Nat) : Nat := bar4 + 0x10000 + i * 0x1000

/-- The runs of pages of one kind outside the rinks: kind, first page, how many (R28, R503, R504). -/
def pageRuns : List (Kind × Nat × Nat) :=
  [(.dv, dvPage, 1), (.ppMb, ppMbPage, 1), (.ppSess, ppSess 0, 8), (.sc, scPage, 1), (.feCommon, feCommonPage, 1),
   (.fePort, fePort 0, 8), (.feStrm, feStrm 0, 32), (.feSlm, feSlm 0, 4), (.mxCommon, mxCommonPage, 1),
   (.mxCh, mxCh 0, 8), (.nsCommon, nsCommonPage, 1), (.nsCh, nsCh 0, 2), (.pxCommon, pxCommonPage, 1)] ++
  [(.pxFault, pxFaultPage, 1), (.tzCommon, tzCommonPage, 1), (.tzPort, tzPort 0, 3), (.clCommon, clCommonPage, 1),
   (.gd, gdPage, 1), (.dmCommon, dmCommonPage, 1), (.dmCh, dmCh 0, 16), (.wn, wnPage, 1), (.wnTab, wnTab 0, 4),
   (.tb, tbPage, 1), (.ck, ckPage, 1), (.pw, pwPage, 1), (.wx, wxPage, 1), (.pc, pcPage, 1), (.pxCmd, pxCmd 0, 8),
   (.pxVr, pxVr 0, 32)]

/-- The kind and unit of a page by the runs. -/
def findPage : List (Kind × Nat × Nat) → Nat → Option (Kind × Nat)
  | [], _ => none
  | (k, base, n) :: rs, p => if base ≤ p ∧ p < base + n * 0x1000 then some (k, (p - base) / 0x1000) else findPage rs p

/-- The kind and unit of a page in the region of rink n, by its offset in the region (R29). -/
def rinkPage (n o : Nat) : Option (Kind × Nat) :=
  if o = 0 then some (.rk, n)
  else if o < 0x9000 then some (.cr, 8 * n + (o / 0x1000 - 1))
  else if o = 0x10000 then some (.clRink, n)
  else if 0x11000 ≤ o ∧ o < 0x19000 then some (.clCore, 8 * n + (o / 0x1000 - 0x11))
  else none

/-- The kind and unit number of the page at an address, for a page that exists (R28, R29, R503, R504). -/
def pageInfo (p : Nat) : Option (Kind × Nat) :=
  if p % 0x1000 ≠ 0 then none
  else if 0x1000000 ≤ p ∧ p < 0x2000000 then rinkPage ((p - 0x1000000) / 0x100000) (p % 0x100000)
  else findPage pageRuns p

/-- PG_ID.block_type of a kind of page (R39). -/
def blockType : Kind → Nat
  | .dv => 1 | .ppMb | .ppSess => 2 | .feCommon | .fePort | .feStrm | .feSlm => 3 | .rk => 4 | .cr => 5
  | .clCommon | .clRink | .clCore => 6 | .gd => 7 | .dmCommon | .dmCh => 8 | .wn | .wnTab => 9
  | .mxCommon | .mxCh => 10 | .nsCommon | .nsCh => 11 | .pxCommon | .pxFault | .pxCmd | .pxVr => 12
  | .tzCommon | .tzPort => 13 | .tb => 14 | .ck => 15 | .pw => 16 | .wx => 17 | .pc => 18 | .sc => 19

/-- PG_ID.page of a kind of page (R56, R81, R198, R280, R354 to R358, R403, R466 to R468, R496, R503, R504, R534). -/
def pageNo : Kind → Nat
  | .ppSess | .fePort | .mxCh | .nsCh | .pxFault | .tzPort | .clRink | .dmCh | .wnTab => 1
  | .feStrm | .pxCmd | .clCore => 2
  | .feSlm | .pxVr => 3
  | _ => 0

/-- PG_ID.instance (R29, R33): the unit number, or 0xFF for a page that numbers no unit. -/
def instNo (k : Kind) (i : Nat) : Nat :=
  match k with
  | .ppSess | .fePort | .feStrm | .feSlm | .mxCh | .nsCh | .pxFault | .pxCmd | .pxVr | .tzPort | .dmCh | .wnTab
  | .rk | .cr | .clRink => i
  | .clCore => 16 + i
  | _ => 0xFF

/-- PG_ID of the page at an address; 0xFFFF_FFFF where no page exists. -/
def pgId (p : Nat) : Nat :=
  match pageInfo p with
  | some (k, i) => blockType k * 2 ^ 16 + instNo k i * 2 ^ 8 + pageNo k
  | none => 0xFFFFFFFF

/-- The page carries the eight counters of R596. -/
def countsEvents : Kind → Bool
  | .cr | .rk | .clRink | .clCore | .feCommon | .fePort | .feSlm | .mxCh | .nsCh | .pxCommon | .tzPort | .dmCommon
  | .gd | .wn | .tb => true
  | _ => false

/-- The body registers of a kind of page, without the counters. -/
def bodyRegs : Kind → List RegRow
  | .dv => dvRegs | .ppMb => ppMbRegs | .ppSess => ppSessRegs | .sc => scRegs | .feCommon => feCommonRegs
  | .fePort => fePortRegs | .feStrm => feStrmRegs | .feSlm => feSlmRegs | .mxCommon => mxCommonRegs | .mxCh => mxChRegs
  | .nsCommon => nsCommonRegs | .nsCh => nsChRegs | .pxCommon => pxCommonRegs | .pxFault => pxFaultRegs
  | .pxCmd => pxCmdRegs | .pxVr => pxVrRegs | .tzCommon => tzCommonRegs | .tzPort => tzPortRegs | .clCommon => []
  | .clRink | .clCore => clRegs | .gd => gdRegs | .dmCommon => dmCommonRegs | .dmCh => dmChRegs | .wn => wnRegs
  | .wnTab => wnTabRegs | .tb => tbRegs | .ck => ckRegs | .pw => pwRegs | .wx => wxRegs | .pc => pcRegs | .rk => rkRegs
  | .cr => crRegs

/-- The registers of the counters that a kind of page carries: PC_SAMPLE in CR_ pages only (R597). -/
def counterRegs (k : Kind) : List RegRow :=
  if k = .cr then cntRegs else if countsEvents k then cntRegs.filter (fun r => r.off ≠ 0xFA4) else []

/-- The register of a list that answers an offset. -/
def findReg : List RegRow → Nat → Option RegRow
  | [], _ => none
  | r :: rs, off =>
    if r.off ≤ off ∧ off < r.off + max 1 (r.stride * r.count) ∧ (off - r.off) % max 1 r.stride = 0 then some r
    else findReg rs off

/-- The page carries counters (R596). -/
def isCounting (page : Nat) : Bool := match pageInfo page with | some (k, _) => countsEvents k | none => false

/-- An offset of a kind of page is one of its counter registers (R596): the entries of a window table page reach beyond 0xF00 (R358). -/
def isCntOff (k : Kind) (off : Nat) : Bool := decide (0xF00 ≤ off) && countsEvents k

/-- The register at an offset of a kind of page; header first, then the body, then the counters. -/
def regRow (k : Kind) (off : Nat) : Option RegRow :=
  if off < 0x40 then findReg hdrRegs off
  else if isCntOff k off then findReg (counterRegs k) off
  else findReg (bodyRegs k) off

/-- A word made of field values. -/
def packFields (fs : List FieldRow) (f : FieldRow → Nat) : Nat :=
  fs.foldl (fun w r => setBits w r.hi r.lo (f r)) 0

/-- PG_CTRL.enable at reset (R34). -/
def enableReset : Kind → Nat
  | .dv | .ppMb | .ppSess | .sc | .pxCommon | .pxFault | .pxCmd | .pxVr | .ck | .pw | .wx | .tb
  | .nsCommon | .nsCh => 1
  | _ => 0

/-- The byte offset within the page of its first capability entry; 0 for none (R50, R55, R636). -/
def capFirst : Kind → Nat
  | .dv => 0x200
  | .sc | .feCommon | .mxCommon | .nsCommon | .pxCommon | .tzCommon | .gd | .wn | .tb => 0xE00
  | _ => 0

/-- The reset value of the register word at an address of the register space: the tables' values, and those that
differ by page (R33, R34, R83, R121); the mask bit of a vector is 1 (PRESUMED, log 12). -/
def regReset (key : Nat) : Word :=
  let off := key % 0x1000
  match pageInfo (key - off) with
  | none => if bar4 + 0x7FE000 ≤ key ∧ key < bar4 + 0x7FE800 ∧ key % 16 = 12 then 1 else 0
  | some (k, i) =>
    match regRow k off with
    | none => 0
    | some r =>
      let w := packFields r.fields (·.rst)
      BitVec.ofNat 32 <|
        if off = 0x000 then pgId (key - off)
        else if off = 0x008 then capFirst k
        else if off = 0x00C then w + enableReset k
        else if k = .feStrm ∧ off = 0x040 then w + i % 4 * 2 ^ 4 + i / 4
        else if k = .feStrm ∧ (off = 0x0A0 ∨ off = 0x0B4) then 0x1000
        else if k = .feStrm ∧ (off = 0x0A8 ∨ off = 0x0BC) then 0x10000000
        else w

namespace State

/-! ### Registers -/

/-- The register word at an address. -/
def word (s : State) (key : Nat) : Nat := (tabGet regReset s.regs key).toNat

/-- The state with one register word set. -/
def setWord (s : State) (key v : Nat) : State :=
  { s with regs := tabPut regReset s.regs key (BitVec.ofNat 32 v) }

/-- The address of register i of a field's register. -/
def fldKey (page : Nat) (f : Fld) (i : Nat) : Nat := page + f.off + f.stride * i

/-- A field of a page, of register i where there are several. -/
def getF (s : State) (page : Nat) (f : Fld) (i : Nat := 0) : Nat := bits (s.word (fldKey page f i)) f.hi f.lo

/-- A one-bit field as a truth. -/
def flag (s : State) (page : Nat) (f : Fld) (i : Nat := 0) : Bool := s.getF page f i == 1

/-- The state with a field set, cut to its width. -/
def setF (s : State) (page : Nat) (f : Fld) (v : Nat) (i : Nat := 0) : State :=
  s.setWord (fldKey page f i) (setBits (s.word (fldKey page f i)) f.hi f.lo v)

/-- The state with a counting field raised by n, saturating. -/
def satF (s : State) (page : Nat) (f : Fld) (n : Nat := 1) (i : Nat := 0) : State :=
  s.setF page f (satAdd (f.hi + 1 - f.lo) (s.getF page f i) n) i

/-- The state with a counting field raised by n, wrapping. -/
def wrapF (s : State) (page : Nat) (f : Fld) (n : Nat := 1) (i : Nat := 0) : State :=
  s.setF page f (s.getF page f i + n) i

/-- Two register words as a 64-bit number, low word first. -/
def get64 (s : State) (page : Nat) (lo hi : Fld) (i : Nat := 0) : Nat :=
  s.getF page lo i + s.getF page hi i * 2 ^ 32

/-- A 64-bit number into two register words, low word first. -/
def set64 (s : State) (page : Nat) (lo hi : Fld) (v : Nat) (i : Nat := 0) : State :=
  (s.setF page lo (v % 2 ^ 32) i).setF page hi (v / 2 ^ 32) i

end State

/-! ### Memories -/

/-- The byte of a memory at an address: what is listed, else 0 (log 5). -/
def memByte (m : List Host.Cell) (a : Nat) : Byte := tabGet (fun _ => 0) m a

/-- The memory with one byte written. -/
def memPut (m : List Host.Cell) (a : Nat) (b : Byte) : List Host.Cell := tabPut (fun _ => 0) m a b

/-- n bytes of a memory from an address. -/
def memRead (m : List Host.Cell) (a n : Nat) : List Byte := (List.range n).map fun i => memByte m (a + i)

/-- The memory with bytes written from an address up. -/
def memWrite : List Host.Cell → Nat → List Byte → List Host.Cell
  | m, _, [] => m
  | m, a, b :: bs => memWrite (memPut m a b) (a + 1) bs

/-- The canonical form of a memory. -/
def Memory.wf (m : List Host.Cell) : Bool := tabWf (fun _ => (0 : Byte)) m

namespace State

/-- Bytes of host memory. -/
def hostRd (s : State) (a n : Nat) : List Byte := memRead s.host a n
/-- Host memory written. -/
def hostWr (s : State) (a : Nat) (bs : List Byte) : State := { s with host := memWrite s.host a bs }
/-- The key in a slot of the security complex. -/
def keySlot (s : State) (r : Nat) : List Byte := (tabGet (fun _ => { key := [], gen := 0 : KeySlot }) s.keys r).key

/-- The sealed regions that are on, in order: number, first byte and end (R395). -/
def sealed (s : State) : List (Nat × Nat × Nat) :=
  (List.range 8).filterMap fun n =>
    let b := s.getF mxCommonPage MX_SEALn_BASE_base_mib n * 2 ^ 20
    let l := s.getF mxCommonPage MX_SEALn_size_mib n * 2 ^ 20
    if s.flag mxCommonPage MX_SEALn_BASE_en n && l != 0 then some (n, b, b + l) else none

/-- The sealed region of a local address: the lowest-numbered applies (R396). -/
def sealOf (regs : List (Nat × Nat × Nat)) (a : Nat) : Option Nat :=
  match regs.find? (fun r => decide (r.2.1 ≤ a ∧ a < r.2.2)) with | some r => some r.1 | none => none

/-- The 16 bytes around a sealed address, decrypted (R395). -/
def unsealBlock (s : State) (n a : Nat) : List Byte :=
  xtsBlock true (s.keySlot (s.getF mxCommonPage MX_SEALn_key n)) (a / 512) (a % 512 / 16) (memRead s.gddr (a / 16 * 16) 16)

/-- Bytes of the local GDDR6 space as an agent sees them: a sealed region in plaintext (R395, R396). -/
def gddrRd (s : State) (a n : Nat) : List Byte :=
  match s.sealed with
  | [] => memRead s.gddr a n
  | regs => (List.range n).map fun i =>
    match sealOf regs (a + i) with
    | some r => (s.unsealBlock r (a + i)).getD ((a + i) % 16) 0
    | none => memByte s.gddr (a + i)

/-- One byte written into a sealed region: its block is encrypted again. -/
def sealPut (s : State) (n a : Nat) (b : Byte) : State :=
  let blk := patch (s.unsealBlock n a) (a % 16) [b]
  let ct := xtsBlock false (s.keySlot (s.getF mxCommonPage MX_SEALn_key n)) (a / 512) (a % 512 / 16) blk
  { s with gddr := memWrite s.gddr (a / 16 * 16) ct }

/-- The local GDDR6 space written by an agent that sees plaintext. -/
def gddrWr (s : State) (a : Nat) (bs : List Byte) : State :=
  match s.sealed with
  | [] => { s with gddr := memWrite s.gddr a bs }
  | regs => (bs.zipIdx a).foldl (fun s p =>
    match sealOf regs p.2 with
    | some r => s.sealPut r p.2 p.1
    | none => { s with gddr := memPut s.gddr p.2 p.1 }) s
/-- Bytes of stripe memory (R75). -/
def stripeRd (s : State) (a n : Nat) : List Byte := memRead s.stripe a n
/-- Stripe memory written. -/
def stripeWr (s : State) (a : Nat) (bs : List Byte) : State := { s with stripe := memWrite s.stripe a bs }
/-- Bytes of the scratchpad of a rink, from an address in it (R269). -/
def spadRd (s : State) (rink a n : Nat) : List Byte := memRead s.spad (rink * 2 ^ 23 + a) n
/-- A rink's scratchpad written. -/
def spadWr (s : State) (rink a : Nat) (bs : List Byte) : State :=
  { s with spad := memWrite s.spad (rink * 2 ^ 23 + a) bs }

/-! ### Free values -/

/-- A free value and the state after it is drawn. -/
def draw (s : State) : Nat × State := ((Config.freeWord s.freeCtr).toNat, { s with freeCtr := s.freeCtr + 1 })

/-- n free bytes and the state after they are drawn. -/
def drawBytes (s : State) (n : Nat) : List Byte × State :=
  ((List.range n).map fun i => (Config.freeWord (s.freeCtr + i)).setWidth 8, { s with freeCtr := s.freeCtr + n })

/-! ### Time -/

/-- The integer part of the timebase (R536). -/
def ns (s : State) : Nat := s.time.now / 2 ^ 32

/-- Elapsed timebase in whole nanoseconds (R637). -/
def elapsedNs (s : State) : Nat := s.time.elapsed / 2 ^ 32

/-- The boot stage (R607). -/
def stage (s : State) : Nat := s.getF dvPage DV_BOOT_stage

/-- The 9160 has halted on a Device-scope code (R610). -/
def halted (s : State) : Bool := s.stage == 5

/-- The power state register (R578). -/
def psState (s : State) : Nat := s.getF pwPage PW_PS_STAT_state

end State

end Sys2Proof.Machine
end

