-- ==== Sys2Proof/Machine/Flags.lean ====
section
/-! DEFINITION. Status flags: page events and set_evt (R43), the vectors' assertion and MSI-X messages (R44 to R48),
performance counters (R598, R604, R605) and fault records (R26, R512, R513, R518). -/

namespace Sys2Proof.Machine

/-- The failure domain of a page, for a page inside one (R16, R28). -/
def pageDomain (page : Nat) : Option Nat :=
  if 0x1000000 ≤ page ∧ page < 0x2000000 then some ((page - 0x1000000) / 0x400000) else none

namespace State

/-- The state of failure domain d: 0 LIVE, 1 FENCED, 2 RESETTING, 3 DISABLED (R415). -/
def domState (s : State) (d : Nat) : Nat := s.getF pwPage PW_DOM_STATd_state d

/-- The page is not cut off by the fence or the reset of its domain (R31, R414). -/
def domLive (s : State) (page : Nat) : Bool :=
  match pageDomain page with
  | some d => s.domState d == 0
  | none => true

/-! ### Counters -/

/-- The 48-bit count of counter i of a page. -/
def count48 (s : State) (page i : Nat) : Nat := s.getF page PC_CNTi_LO_cnt_lo i + s.getF page PC_CNTi_HI_cnt_hi i * 2 ^ 32

/-- Counter i of a page set to a 48-bit count. -/
def setCount48 (s : State) (page i v : Nat) : State :=
  (s.setF page PC_CNTi_LO_cnt_lo (v % 2 ^ 32) i).setF page PC_CNTi_HI_cnt_hi (v / 2 ^ 32) i

/-- A status bit set without counting the set as an event of a counter: set_evt rises when the bit is enabled
(R43). -/
def raiseBit (s : State) (page b : Nat) : State :=
  let s1 := s.setWord (page + 0x14) (setBit (s.word (page + 0x14)) b)
  if bit (s.word (page + 0x18)) b then s1.wrapF page PG_STAT_set_evt else s1

/-- Counter i of a page has wrapped: its ovf bit is set; where irq_en is set event bit 29 is raised, and in a CR_ page a sample is
due (R597, R604). -/
def counterWrapped (s : State) (page i : Nat) : State :=
  let s1 := s.setWord (page + 0xFA0) (setBit (s.word (page + 0xFA0)) i)
  if s.flag page PC_SELi_irq_en i then
    let s2 := s1.raiseBit page 29
    match pageInfo page with
    | some (.cr, k) =>
      if s2.cnt.samplePend.contains k then s2
      else { s2 with cnt := { s2.cnt with samplePend := k :: s2.cnt.samplePend } }
    | _ => s2
  else s1

/-- n events added to counter i of a page (R598). -/
def countOne (s : State) (page n i : Nat) : State :=
  let v := s.count48 page i + n
  let s1 := s.setCount48 page i (v % 2 ^ 48)
  if 2 ^ 48 ≤ v then s1.counterWrapped page i else s1

/-- n events of number `ev` on a page, counted by each of its counters that selects them: nothing while the die is frozen or the
counter is off (R598, R599, R601). -/
def countEvt (s : State) (page ev n : Nat) : State :=
  if s.flag pcPage PC_CTRL_frozen then s
  else (List.range 8).foldl (fun s i =>
    if s.flag page PC_SELi_en i && s.getF page PC_SELi_event i == ev && ev != 0 then s.countOne page n i else s) s

/-- Bytes that complete at a port, counted by each bandwidth monitor set to it (R605). -/
def countBw (s : State) (port n : Nat) : State :=
  (List.range 16).foldl (fun s k =>
    if s.flag pcPage PC_BW_CFGk_en k && s.getF pcPage PC_BW_CFGk_port k == port then
      let t := tabPut (fun _ => 0) s.cnt.bwBytes k (tabGet (fun _ => 0) s.cnt.bwBytes k + n)
      { s with cnt := { s.cnt with bwBytes := t } }
    else s) s

/-- Bytes the 9160 writes to host memory over PCI Express, counted at the port (R599, R605 port 24). -/
def pcieWr (s : State) (a : Nat) (bs : List Byte) : State :=
  ((s.hostWr a bs).countBw 24 bs.length).countEvt pxCommonPage 0x11 bs.length

/-- The counting of n bytes read from the host (R599, R605 port 25). -/
def pcieRdCount (s : State) (n : Nat) : State := (s.countBw 25 n).countEvt pxCommonPage 0x10 n

/-- The channel of a local GDDR6 block (R387). -/
def gddrChannel (n : Nat) : Nat := ((n / 4) ^^^ (n / 256) ^^^ (n / 16384)) % 8

/-- The channel block of a local block (R387). -/
def gddrChannelBlock (n : Nat) : Nat := n / 32 * 4 + n % 4

/-- In-band ECC is on (R388). -/
def eccOn (s : State) : Bool := s.flag mxCommonPage MX_CFG_ecc_en

/-- The size of the local space: 14 GiB with in-band ECC, else 16 GiB (R18, R501). -/
def gddrEnd (s : State) : Nat := if s.eccOn then 14 * 2 ^ 30 else 16 * 2 ^ 30

/-- The groups of eight device blocks that the data blocks of a write touch and do not cover, as (channel, group) (R388, R390). -/
def partGroups (blocks : List Nat) : List (Nat × Nat) :=
  let g := blocks.map fun n => (gddrChannel n, gddrChannelBlock n / 7)
  g.eraseDups.filter fun x => (g.filter (· == x)).length < 7

/-- The counting of the 64-byte blocks of an access at the channels' ports, and of the read-modify-writes of check blocks (R390,
R599, R605). -/
def gdCount (s : State) (a n : Nat) (write : Bool) : State :=
  let blocks := (List.range (cdiv (a % 64 + n) 64)).map (a / 64 + ·)
  let s1 := blocks.foldl (fun s m =>
    let c := gddrChannel m
    ((s.countBw (if write then 16 + c else 8 + c) 64).countEvt (mxCh c) (if write then 0x11 else 0x10) 1)) s
  if write && s.eccOn then (partGroups blocks).foldl (fun s g => s.countEvt (mxCh g.1) 0x12 1) s1 else s1

/-- The local GDDR6 space written by an agent of the device. -/
def gdWr (s : State) (a : Nat) (bs : List Byte) : State := (s.gddrWr a bs).gdCount a bs.length true

/-! ### Events -/

/-- A set of PG_IRQ_STAT bit b of a page by the hardware: set_evt and its counter event follow when the bit is
enabled (R43, R599 event 0x02). -/
def raise (s : State) (page b : Nat) : State :=
  let s1 := s.raiseBit page b
  match pageInfo page with
  | some (k, _) => if countsEvents k && bit (s.word (page + 0x18)) b then s1.countEvt page 0x02 1 else s1
  | none => s1

/-- A set when a condition holds. -/
def raiseIf (s : State) (c : Bool) (page b : Nat) : State := if c then s.raise page b else s

/-! ### Vectors -/

/-- The MSI-X vector a page drives (R45, R503, R504); the stream page's follows its port. -/
def pageVector (s : State) (page : Nat) : Option Nat :=
  match pageInfo page with
  | none => none
  | some (k, i) =>
    match k with
    | .dv | .pxFault => some 0
    | .ppMb | .ppSess | .sc => some 1
    | .feCommon | .feSlm => some 2
    | .fePort => some (3 + i)
    | .feStrm => some (3 + s.getF page FE_STRM_CTRL_port)
    | .mxCommon | .mxCh => some 11
    | .nsCommon | .nsCh => some 12
    | .tzCommon | .tzPort => some 13
    | .tb => some 14
    | .ck | .pw | .wx => some 15
    | .pc => some 16
    | .clCommon | .gd | .dmCommon | .dmCh | .wn | .wnTab => some 17
    | .rk | .clRink => some (18 + i)
    | .cr | .clCore => some (18 + i / 8)
    | .pxCmd => some (34 + i)
    | .pxVr => some (42 + i)
    | .pxCommon => none

/-- The page asserts its interrupt (R44); a page cut off by its domain's fence asserts nothing (DEDUCED, log 14). -/
def asserts (s : State) (page : Nat) : Bool :=
  s.word (page + 0x14) &&& s.word (page + 0x18) != 0 && s.domLive page

/-- Bit v: vector v is asserted by some page (R45). A page that asserts has its PG_IRQ_STAT word listed. -/
def levels (s : State) : Nat :=
  s.regs.foldl (fun acc e =>
    if e.1 % 0x1000 = 0x14 ∧ s.asserts (e.1 - 0x14) then
      match s.pageVector (e.1 - 0x14) with
      | some v => setBit acc v
      | none => acc
    else acc) 0

/-- The vector's mask bit in the MSI-X table. -/
def masked (s : State) (v : Nat) : Bool := bit (s.word (bar4 + 0x7FE00C + 16 * v)) 0

/-- The message of a vector: sent, or pending while the vector is masked or the link is down (R46, R518). -/
def sendMsi (s : State) (v : Nat) : State :=
  if s.masked v || !s.link.up then { s with link := { s.link with pba := setBit s.link.pba v } }
  else
    let t := tabPut (fun _ => 0) s.link.msiSent v (tabGet (fun _ => 0) s.link.msiSent v + 1)
    { s with link := { s.link with msiSent := t } }

/-- The message that R46 sends after a clear or an enable write that leaves the page asserting. -/
def resend (s : State) (page : Nat) : State :=
  match s.pageVector page with
  | some v => if s.asserts page && bit s.link.irqLevel v then s.sendMsi v else s
  | none => s

/-- Something that R567 watches is active: an operator in an array or a row unit, a Chairlift, a DMA channel or an enabled stream. -/
def active (s : State) : Bool :=
  s.cores.any (fun c => c.2.cur.isSome || c.2.drain.isSome) || s.move.lifts.any (fun l => !l.2.isEmpty) ||
    s.getF dmCommonPage DM_BUSY_busy != 0 || s.fe.strm.any fun k => k.2.cfg.isSome

/-- Activity is noted, and work that arrives in Glide returns the state to Schuss (R567). -/
def watch (s : State) : State :=
  if s.active then
    let s1 := { s with power := { s.power with idleSince := s.time.elapsed } }
    if s1.psState = 1 then s1.setF pwPage PW_PS_STAT_state 0 else s1
  else s

/-- The levels of the vectors brought up to date: a rise sends the vector's message (R46, R48). -/
def settle (s : State) : State :=
  let lv := s.levels
  let s1 := (List.range 74).foldl (fun s v => if bit lv v && !bit s.link.irqLevel v then s.sendMsi v else s) s
  { s1 with link := { s1.link with irqLevel := lv } }

/-- How every command ends: the next state, its interrupt levels brought up to date. -/
def done (s : State) : Host.Outcome State Fault Refusal := .next s.watch.settle

/-- How an engine's own step ends: without effect once the device has halted (R25, R610; log 7). -/
def eng (s t : State) : Host.Outcome State Fault Refusal := if s.halted then s.done else t.done

/-! ### Fault records -/

/-- The scope of a fault code (R25, R27): 0 Status, 1 Item, 2 Job, 3 Domain, 4 Device. -/
def codeScope (code : Nat) : Nat :=
  if [0x0504, 0x0509, 0x0602, 0x0802, 0x0804, 0x0806].contains code then 4
  else if [0x0502, 0x0704, 0x0705, 0x0801, 0x0803].contains code then 3
  else if [0x0106, 0x0107, 0x0204, 0x0205, 0x0206, 0x0305, 0x0708].contains code then 2
  else if [0x0108, 0x0201, 0x0202, 0x0203, 0x0207, 0x0301, 0x0304, 0x0401, 0x0402, 0x0404, 0x0409, 0x0501, 0x0505,
      0x0507, 0x050A, 0x050C, 0x0601, 0x0603, 0x0707, 0x0805, 0x0808, 0x0809].contains code then 0
  else 1

/-- The 32 bytes of a fault record (R512). -/
def faultRecord (s : State) (page code dom phase : Nat) : List Byte :=
  leBytes 2 code ++ leBytes 1 (codeScope code) ++ leBytes 1 phase ++ leBytes 4 (pgId page) ++ leBytes 8 s.ns
    ++ leBytes 4 s.link.recNo ++ leBytes 1 dom ++ zeros 11

/-- An entry joins LOG while the store is mounted (R476); the ring holds log_mib MiB of 32-byte entries (log 39). -/
def logEntry (s : State) (e : List Byte) : State :=
  if s.getF nsCommonPage NS_STAT_state ≠ 2 then s
  else
    let most := max 1 (le s.store.profile 0x26 2 * 2 ^ 15)
    let l := s.store.logs ++ [sub e 0 32]
    let excess := l.length - most
    { s with store := { s.store with logs := l.drop excess, logFirst := s.store.logFirst + excess } }

/-- A fault record delivered to the fault ring, dropped, or counted while the link is down (R512, R513, R518); rec_no
is used up in each case. -/
def deliver (s : State) (page code dom : Nat) : State :=
  let wr := s.getF pxFaultPage PX_FLT_IDX_wr
  let rd := s.getF pxFaultPage PX_FLT_IDX_rd
  let dl := s.getF pxFaultPage PX_FLT_CFG_depth_log2
  let s1 :=
    if !s.link.up then s.satF pxCommonPage PX_STAT_faults
    else if !s.flag pxFaultPage PX_FLT_CFG_en || (wr + 2 ^ 16 - rd) % 2 ^ 16 ≥ 2 ^ dl then
      (s.satF pxFaultPage PX_FLT_DROP_count).raise pxFaultPage 1
    else
      let base := s.get64 pxFaultPage PX_FLT_BASE_LO_addr_lo PX_FLT_BASE_HI_addr_hi / 32 * 32
      let rec32 := s.faultRecord page code dom ((wr / 2 ^ dl + 1) % 2)
      ((s.pcieWr (base + wr % 2 ^ dl * 32) rec32).setF pxFaultPage PX_FLT_IDX_wr (wr + 1)).raise pxFaultPage 0
  let rec0 := s.faultRecord page code dom 0
  ({ s1 with link := { s1.link with recNo := (s1.link.recNo + 1) % 2 ^ 32 } } : State).logEntry rec0

/-- The die freezes (R601): the time is recorded, frozen is set and event bit 0 is raised; ignored while frozen. -/
def freeze (s : State) : State :=
  if s.flag pcPage PC_CTRL_frozen then s
  else ((s.set64 pcPage PC_FRZ_LO_t_lo PC_FRZ_HI_t_hi s.ns).setF pcPage PC_CTRL_frozen 1).raise pcPage 0

/-- The record of a posted code (R26): the page's fault bit, the counter event, the record, and the freeze that
PC_CTRL.trig_code names (R601). The action of the code's scope is `post`'s. -/
def postRecord (s : State) (page code dom : Nat) : State :=
  let s1 := ((s.countEvt page 0x03 1).deliver page code dom).raise page 30
  let trig := s.getF pcPage PC_CTRL_trig_code
  if trig ≠ 0 ∧ trig = code then s1.freeze else s1

/-- The key of a rate limit: page, code and a number that tells the limits of one page apart. -/
def markKey (page code sub : Nat) : Nat := (page * 2 ^ 16 + code) * 2 ^ 8 + sub

/-- At most once per `period` nanoseconds of elapsed timebase (R637): may the limit's next posting be made? -/
def rateOpen (s : State) (key period : Nat) : Bool :=
  match tabGet (fun _ => 0) s.marks key with
  | 0 => true
  | t + 1 => t + period * 2 ^ 32 ≤ s.time.elapsed

/-- The mark of a posting made now. -/
def rateMark (s : State) (key : Nat) : State :=
  { s with marks := tabPut (fun _ => 0) s.marks key (s.time.elapsed + 1) }

end State

end Sys2Proof.Machine
end

