-- ==== Sys2Proof/Machine/Walk.lean ====
section
/-! DEFINITION. The tile walk of an operator (R205, R206, R210 to R217): the T1 visits of its nest in order, their T0 steps, the
distinct tiles of each operand, and what a tile's elements are. -/

namespace Sys2Proof.Machine

/-- A value per dimension, by R205's encoding. -/
abbrev Dims := List Nat

def Dims.at' (v : Dims) (d : Nat) : Nat := v.getD d 0

/-- One T0 tile of the walk: skipped (R216) or not, its start in each dimension, and its Winograd element position. -/
structure Step0 where
  skip : Bool
  start : Dims
  el : Nat
  deriving DecidableEq, Repr

/-- One T1 tile of the walk, or a skipped T1 or T2 tile: the product of a fused pair, the starts of its T2 and T1 tiles, its T0
steps, and the numbers of the distinct tiles that it uses (R215). -/
structure Visit where
  phase : Nat
  skip : Bool
  t2 : Dims
  t1 : Dims
  steps : List Step0
  act1 : Nat
  wt1 : Nat
  act2 : Nat
  wt2 : Nat
  deriving DecidableEq, Repr

/-- Every assignment of loop indices of a nest of (dimension, trip count), outermost first. -/
def nest : List (Nat × Nat) → List (List (Nat × Nat))
  | [] => [[]]
  | (d, n) :: r => (List.range n).flatMap fun i => (nest r).map ((d, i) :: ·)

/-- The index of a dimension in an assignment. -/
def idxOf (a : List (Nat × Nat)) (d : Nat) : Nat := match a.find? (fun p => p.1 == d) with | some p => p.2 | none => 0

/-- Starts by dimension from an assignment and sizes, above other starts. -/
def starts (base : Dims) (a : List (Nat × Nat)) (size : Nat → Nat) : Dims :=
  (List.range 6).map fun d => base.at' d + idxOf a d * size d

/-- The schedule extent of R213. -/
def schedExt (l : Level) (ext : Dims) : Nat := if l.rtSrc = 0 ∨ l.extent ≠ 0 then l.extent else ext.at' l.dim

/-- A tile start lies at or beyond the actual extent in some dimension of the table (R216). -/
def beyond (t : Lnt) (ext st : Dims) : Bool := t.levels.any fun l => decide (ext.at' l.dim ≤ st.at' l.dim)

/-- The schedule extents of a table by dimension. -/
def schedOf (t : Lnt) (ext : Dims) (d : Nat) : Nat := match t.level d with | some l => schedExt l ext | none => 1

/-- T2 sizes of a table by dimension (R210). -/
def t2Of (t : Lnt) (ext : Dims) (d : Nat) : Nat :=
  match t.level d with | some l => if l.t2 = 0 then schedOf t ext d else l.t2 | none => 1

/-- The T1 visits of one product in table order (R210, R216), tiles not yet numbered. -/
def rawVisits (o : Oper) (phase : Nat) (ext : Dims) : List Visit :=
  let t := o.l
  let tr := fun (l : Level) => trips l (schedExt l ext)
  let n2 := (inOrder t.levels (·.ordT2)).map fun l => (l.dim, (tr l).1)
  let n1 := (inOrder t.levels (·.ordT1)).map fun l => (l.dim, (tr l).2.1)
  let n0 := (inOrder t.levels (·.ordT0)).map fun l => (l.dim, (tr l).2.2)
  let els := if o.winograd then List.range 16 else [0]
  let zero := [0, 0, 0, 0, 0, 0]
  (nest n2).flatMap fun u =>
    let s2 := starts zero u (t2Of t ext)
    if beyond t ext s2 then [⟨phase, true, s2, s2, [], 0, 0, 0, 0⟩]
    else (nest n1).map fun v =>
      let s1 := starts s2 v t.t1
      if beyond t ext s1 then ⟨phase, true, s2, s1, [], 0, 0, 0, 0⟩
      else
        let steps := (nest n0).flatMap fun x =>
          let s0 := starts s1 x t.t0
          if beyond t ext s0 then [⟨true, s0, 0⟩] else els.map fun e => ⟨false, s0, e⟩
        ⟨phase, false, s2, s1, steps, 0, 0, 0, 0⟩

/-- The dimensions that an operand depends on (R206, R247). -/
def depends (o : Oper) (weight : Bool) : List Nat :=
  if weight then [dOC, dIC, dKX, dKY] else if o.isPool || o.isArgmax then [dOC, dOX, dOY, dKX, dKY] else [dOX, dOY, dIC, dKX, dKY]

/-- A tile's index over the dimensions that an operand depends on. -/
def tileKey (o : Oper) (weight : Bool) (phase : Nat) (st : Dims) : List Nat := phase :: (depends o weight).map st.at'

/-- The running numbering: the latest key and number of each operand at T1 and T2. -/
structure Numbering where
  a1 : Option (List Nat) × Nat
  w1 : Option (List Nat) × Nat
  a2 : Option (List Nat) × Nat
  w2 : Option (List Nat) × Nat

/-- A key's number: the same as the latest while the key is the same, else the next (R215). -/
def numberOf (k : List Nat) (p : Option (List Nat) × Nat) : Option (List Nat) × Nat :=
  match p.1 with
  | none => (some k, 0)
  | some k' => if k = k' then p else (some k, p.2 + 1)

/-- The visits with their distinct tiles numbered. -/
def numberVisits (oper : Nat → Oper) (vs : List Visit) : List Visit :=
  (vs.foldl (fun (acc : Numbering × List Visit) v =>
    if v.skip then (acc.1, v :: acc.2)
    else
      let o := oper v.phase
      let n := acc.1
      let a1 := numberOf (tileKey o false v.phase v.t1) n.a1
      let w1 := numberOf (tileKey o true v.phase v.t1) n.w1
      let a2 := numberOf (tileKey o false v.phase v.t2) n.a2
      let w2 := numberOf (tileKey o true v.phase v.t2) n.w2
      (⟨a1, w1, a2, w2⟩, { v with act1 := a1.2, wt1 := w1.2, act2 := a2.2, wt2 := w2.2 } :: acc.2))
    (⟨(none, 0), (none, 0), (none, 0), (none, 0)⟩, [])).2.reverse

/-- The visits of a product that make steps in a block of 32 rows (R192); skipped tiles count with the first block. -/
def blockVisits (vs : List Visit) (b : Nat) : List Visit :=
  vs.filterMap fun v =>
    if v.skip then (if b = 0 then some v else none)
    else
      let st := v.steps.filter fun x => x.start.at' dOY / 32 == b && (!x.skip || b == 0)
      if st.any (fun x => !x.skip) then some { v with steps := st } else none

/-- The walk of an operator: every T1 visit in order. A fused pair runs P1 and then P2 in each block of 32 rows. -/
def walkOf (o : Oper) (p2 : Option Oper) (ext ext2 : Dims) : List Visit :=
  let v1 := rawVisits o 0 ext
  match p2 with
  | none => numberVisits (fun _ => o) v1
  | some q =>
    let v2 := rawVisits q 1 ext2
    numberVisits (fun ph => if ph = 0 then o else q)
      ((List.range (cdiv (ext.at' dOY) 32)).flatMap fun b => blockVisits v1 b ++ blockVisits v2 b)

/-- Reduction steps that an output tile takes (R215): in-bounds T0 tiles over the reduction dimensions; ARGMAX and ROWFN take
every channel of a pixel or row together. -/
def stepsPerTile (o : Oper) (ext : Dims) : Nat :=
  o.l.levels.foldl (fun n l =>
    if isRed l.dim || ((o.isArgmax || o.isRowFn) && l.dim == dOC) then n * cdiv (ext.at' l.dim) (max 1 l.t0) else n) 1

/-! ### Elements of a tile -/

/-- The code at element i of a row of elements from a byte address (R126, R127). -/
def codeAt (rd : Reader) (a fmt i : Nat) : Nat :=
  match fmtBits fmt with
  | 4 => bits (le (rd (a + i / 2) 1) 0 1) (4 * (i % 2) + 3) (4 * (i % 2))
  | 8 => le (rd (a + i) 1) 0 1
  | 32 => le (rd (a + 4 * i) 4) 0 4
  | _ => le (rd (a + 2 * i) 2) 0 2

/-- Elements packed from a byte boundary; an odd final nibble is 0 (R126). -/
def packCodes (fmt : Nat) (cs : List Nat) : List Byte :=
  match fmtBits fmt with
  | 4 => (List.range (cdiv cs.length 2)).map fun i =>
      BitVec.ofNat 8 (cs.getD (2 * i) 0 % 16 + 16 * (cs.getD (2 * i + 1) 0 % 16))
  | 8 => cs.flatMap (leBytes 1)
  | 32 => cs.flatMap (leBytes 4)
  | _ => cs.flatMap (leBytes 2)

/-- The image coordinates at which a tile's span starts (R236, R239). -/
def originX (o : Oper) (st : Dims) : Int :=
  let (sx, _, dx, _) := o.geo
  if o.isArgmax then st.at' dOX
  else if o.winograd then 2 * (st.at' dOX : Int) - o.d.padL
  else ((st.at' dOX * sx + st.at' dKX * dx : Nat) : Int) - o.d.padL
def originY (o : Oper) (st : Dims) : Int :=
  let (_, sy, _, dy) := o.geo
  if o.isArgmax then st.at' dOY
  else if o.winograd then 2 * (st.at' dOY : Int) - o.d.padT
  else ((st.at' dOY * sy + st.at' dKY * dy : Nat) : Int) - o.d.padT

/-- A coordinate mapped into 0 to n − 1 by Mirror or Edge (R240). -/
def foldCoord (mirror : Bool) (n : Nat) (x : Int) : Nat :=
  if mirror then
    if n ≤ 1 then 0
    else
      let p : Int := 2 * ((n : Int) - 1)
      let m := (x % p).toNat
      if m < n then m else (p - m).toNat
  else if x < 0 then 0 else min x.toNat (n - 1)

/-- An in-image coordinate. -/
def inside (n : Nat) (x : Int) : Bool := decide (0 ≤ x) && decide (x < n)

/-- What the element of an image map at channel c, row y and column x is (R236, R240): read at a place of the map, or a padding
code. -/
inductive ImgElem where
  | read (y x : Nat)
  | code (c : Nat)
  deriving DecidableEq, Repr

def imgElem (o : Oper) (inW inH : Nat) (y x : Int) : ImgElem :=
  if inside inH y && inside inW x then .read y.toNat x.toNat
  else
    match o.d.padMode with
    | 0 => .code (zeroCode o.q.act o.q.zin)
    | 1 => .code o.d.padConst
    | m => .read (foldCoord (m == 2) inH y) (foldCoord (m == 2) inW x)

/-- The row whose scale exponent an element takes (R241). -/
def expRow (o : Oper) (inH : Nat) (y : Int) : Nat :=
  if inside inH y then y.toNat else foldCoord (o.d.padMode == 2) inH y

/-- Row pitch and plane pitch of a planar operand, in elements (R235). -/
def pitchRow (o : Oper) : Int :=
  let (_, sy, _, dy) := o.geo
  if (o.l.level dOY).isSome then o.l.actS dOY / sy else if (o.l.level dKY).isSome then o.l.actS dKY / dy else o.d.inW
def pitchPlane (o : Oper) : Int := o.l.actS o.chDim

/-- An element's byte address and its place from a byte-aligned row start: the element index from a base, signed. -/
def elemAt (rd : Reader) (base fmt : Nat) (i : Int) : Nat :=
  let a : Int := (base : Int) * (8 / fmtBits fmt : Nat)
  if fmtBits fmt = 4 then
    let n := (a + i).toNat
    codeAt rd (n / 2) fmt (n % 2)
  else codeAt rd ((base : Int) + i * ((fmtBits fmt / 8 : Nat) : Int)).toNat fmt 0

/-- The code of a planar map's element from its source. -/
def planarCode (o : Oper) (rd : Reader) (base c y x : Nat) : Nat :=
  elemAt rd base o.q.act ((c : Int) * pitchPlane o + (y : Int) * pitchRow o + x)

/-- The size of a tile in each dimension: T1 sizes, or T2 sizes. -/
abbrev Sizes := Nat → Nat

/-- The last in-bounds index of a tile in a dimension, relative to its start. -/
def lastIn (ext st : Dims) (sz : Sizes) (d : Nat) : Nat := min (sz d) (max 1 (ext.at' d - st.at' d)) - 1

/-- Row y of the tile's span is read (R242): some in-bounds pair of output row and tap maps to it. -/
def rowUsed (o : Oper) (ext st : Dims) (sz : Sizes) (yi : Nat) : Bool :=
  let (_, sy, _, dy) := o.geo
  if o.winograd then decide (yi ≤ 2 * lastIn ext st sz dOY + 3)
  else (List.range (lastIn ext st sz dKY + 1)).any fun k => k * dy ≤ yi && (yi - k * dy) % sy == 0 &&
    (yi - k * dy) / sy ≤ lastIn ext st sz dOY

/-- Columns of the span up to the last in-bounds one. -/
def spanIn (o : Oper) (ext st : Dims) (sz : Sizes) : Nat :=
  let (sx, _, dx, _) := o.geo
  if o.winograd then 2 * lastIn ext st sz dOX + 4 else lastIn ext st sz dOX * sx + lastIn ext st sz dKX * dx + 1

/-- The code of an image map's element at a channel, row and column, padding applied (R240), from the codes of the map. -/
def imgCode (o : Oper) (inW inH : Nat) (src : Nat → Nat → Nat → Nat) (c : Nat) (y x : Int) : Nat :=
  match imgElem o inW inH y x with
  | .read y x => src c y x
  | .code k => k

/-- The rows of a planar slot as (byte offset in the slot, elements): channel, row, column (R217, R221, R242). Rows that no pair
uses are left unwritten. `elem` gives the code at a channel, row and column of the padded map. -/
def planarSlot (o : Oper) (ext st : Dims) (sz : Sizes) (elem : Nat → Int → Int → Nat) : List (Nat × List Nat) :=
  let ix := o.spanX sz
  let iy := o.spanY sz
  let rb := o.rowBytes sz
  let x0 := originX o st
  let y0 := originY o st
  let xin := spanIn o ext st sz
  (List.range (sz o.chDim)).flatMap fun ci =>
    let c := st.at' o.chDim + ci
    (List.range iy).filterMap fun yi =>
      let off := (ci * iy + yi) * rb
      if ext.at' o.chDim ≤ c then some (off, List.replicate ix o.l.actPad)
      else if !rowUsed o ext st sz yi then none
      else some (off, (List.range ix).map fun xi => if xin ≤ xi then o.l.actPad else elem c (y0 + yi) (x0 + xi))

/-- The rows of a row-layout slot: token rows of IC elements (R221). -/
def rowSlot (o : Oper) (ext st : Dims) (sz : Sizes) (src : Nat → Nat → Nat → Nat) : List (Nat × List Nat) :=
  let rb := o.rowBytes sz
  (List.range (sz dOY)).flatMap fun yi => (List.range (sz dOX)).map fun xi =>
    let oy := st.at' dOY + yi
    let ox := st.at' dOX + xi
    ((yi * sz dOX + xi) * rb, (List.range (sz dIC)).map fun i =>
      let ic := st.at' dIC + i
      if ic < ext.at' dIC ∧ oy < ext.at' dOY ∧ (ox < ext.at' dOX ∨ (o.l.level dOX).isNone) then src oy ox ic else o.l.actPad)

/-- The elements of a weight slot in the order OC, KY, KX, IC (log 23): an out-of-bounds one is not read and stays 0. -/
def weightSlot (ext st : Dims) (sz : Sizes) (src : Nat → Nat → Nat → Nat → Nat) : List Nat :=
  (List.range (sz dOC)).flatMap fun a => (List.range (sz dKY)).flatMap fun b => (List.range (sz dKX)).flatMap fun c =>
    (List.range (sz dIC)).map fun i =>
      let oc := st.at' dOC + a
      let ky := st.at' dKY + b
      let kx := st.at' dKX + c
      let ic := st.at' dIC + i
      if oc < ext.at' dOC ∧ ky < ext.at' dKY ∧ kx < ext.at' dKX ∧ ic < ext.at' dIC then src oc ky kx ic else 0

/-- The place of a weight in its slot. -/
def weightIdx (st : Dims) (sz : Sizes) (oc ky kx ic : Nat) : Nat :=
  (((oc - st.at' dOC) * sz dKY + (ky - st.at' dKY)) * sz dKX + (kx - st.at' dKX)) * sz dIC + (ic - st.at' dIC)

/-! ### The array on one T0 tile (R130 to R137, R166 to R170, R182 to R185) -/

/-- An element entering the expander: its value with its scale, whether it counts (not padding), and whether it was not
finite (R131, R142, R218, R241). -/
structure LaneIn where
  x : Dy
  counts : Bool
  nonfin : Bool
  deriving DecidableEq, Repr

/-- The base exponent of a tile (R131). -/
def baseExp (xs : List LaneIn) : Int :=
  (xs.foldl (fun (m : Option Int) l =>
    if l.x.isZero then m else match m with | none => some l.x.log | some b => some (max b l.x.log)) none).getD 0

/-- The parts of an operand (R133): for each, its base and how a value enters the lane. `sig` cuts a Winograd element to 12
significant bits (R185). -/
def lanePart (fmt part : Nat) (b : Int) (sig : Bool) (x : Dy) : Dy :=
  if x.isZero then .zero
  else
    let keep := fun (y : Dy) (lo : Int) => if y.isZero then Dy.zero else if y.log < lo then Dy.zero else y
    if fmt = 11 then
      let p1 := x.truncSig 8
      if part = 0 then keep p1 (b - 62) else keep (x.sub p1) (b - 62)
    else if fmt = 12 then
      if part = 0 then keep x (b - 62) else if x.log < b - 62 then keep x (b - 125) else .zero
    else keep (if sig then x.roundSig 12 else x) (b - 62)

/-- How many parts an operand format takes, and the base of a part (R133, R134). -/
def partsOf (fmt : Nat) : Nat := if fmt = 11 ∨ fmt = 12 then 2 else 1
def partBase (fmt part : Nat) (b : Int) : Int := if fmt = 12 ∧ part = 1 then b - 63 else b

/-- Elements flushed (R132, R133). -/
def flushed (fmt : Nat) (b : Int) (xs : List LaneIn) : Nat :=
  (xs.filter fun l => l.counts && !l.x.isZero && decide (l.x.log < b - (if fmt = 12 then 125 else 62))).length

/-- The column registers of one T0 tile (R136): for each pass, the weight of the least significant bit and the sums by
position and column, in units of it; every product is rounded to that weight before it is added. -/
def arraySums (aFmt wFmt : Nat) (wino : Bool) (acts : List (List LaneIn)) (wts : List (List LaneIn)) :
    List (Int × List (List Int)) :=
  let ba := baseExp acts.flatten
  let bw := baseExp wts.flatten
  (List.range (partsOf aFmt)).flatMap fun pa => (List.range (partsOf wFmt)).map fun pw =>
    let lsb := partBase aFmt pa ba + partBase wFmt pw bw - 31
    let av := acts.map fun v => v.map fun l => lanePart aFmt pa ba wino l.x
    let wv := wts.map fun v => v.map fun l => lanePart wFmt pw bw false l.x
    (lsb, av.map fun v => wv.map fun w =>
      (v.zip w).foldl (fun (acc : Int) p => if p.1.isZero || p.2.isZero then acc else acc + (p.1.mul p.2).round lsb) 0)

/-- The residue of a product of lane significands: (ra × rw × 2^(t mod 3)) mod 7 from 3-bit residues (R195). -/
def productResidue (ma mw : Int) (t : Nat) : Nat :=
  let ra := (ma % 7).toNat
  let rw' := (mw % 7).toNat
  ra * rw' * 2 ^ (t % 3) % 7

/-- The residue of a product with k bits below the register: ((P − d) × 4^k + i) mod 7, d the field discarded and i the rounding
increment (R195). -/
def roundedResidue (p d : Int) (k : Nat) (i : Int) : Nat := (((p - d) * 4 ^ k + i) % 7).toNat

/-- The residue of a register: the mathematical residue of its two's-complement value (R196). -/
def registerResidue (v : Int) : Nat := (v % 7).toNat

/-- A 48-bit register with a bit inverted (R197). -/
def flipBit (v : Int) (b : Nat) : Int := toSigned 48 (ofSigned 48 v ^^^ 2 ^ b)

/-- Bᵀ d B of a 4 × 4 patch at element (ξ, ν), exactly but for terms more than 24 binades below the patch's largest, which are
rounded at that place (R182, R185). -/
def winoInput (d : List (List Dy)) (el : Nat) : Dy :=
  let row := fun (i : Nat) => match i with
    | 0 => [(1 : Int), 0, -1, 0] | 1 => [0, 1, 1, 0] | 2 => [0, -1, 1, 0] | _ => [0, 1, 0, -1]
  let all := d.flatten.filter fun x => !x.isZero
  let top := (all.foldl (fun (m : Option Int) x => match m with | none => some x.log | some b => some (max b x.log)) none).getD 0
  let cut := fun (x : Dy) => if x.isZero then x else if x.log < top - 24 then ⟨x.round (top - 24), top - 24⟩ else x
  (List.range 4).foldl (fun acc i => (List.range 4).foldl (fun acc j =>
    let k := (row (el / 4)).getD i 0 * (row (el % 4)).getD j 0
    if k = 0 then acc else Dy.add acc ((cut ((d.getD i []).getD j .zero)).mul (.ofInt k))) acc) Dy.zero

/-- G g Gᵀ of a 3 × 3 filter at element (ξ, ν), rounded to 8 significant bits (R184). G's rows are doubled here. -/
def winoFilter (g : List (List Dy)) (el : Nat) : Dy :=
  let row := fun (i : Nat) => match i with | 0 => [(2 : Int), 0, 0] | 1 => [1, 1, 1] | 2 => [1, -1, 1] | _ => [0, 0, 2]
  (((List.range 3).foldl (fun acc i => (List.range 3).foldl (fun acc j =>
    let k := (row (el / 4)).getD i 0 * (row (el % 4)).getD j 0
    if k = 0 then acc else Dy.add acc (((g.getD i []).getD j .zero).mul (.ofInt k))) acc) Dy.zero).shift (-2)).roundSig 8

/-- Aᵀ M A at output (i, j) of a block, exactly (R182, R186): M is row ξ, column ν. -/
def winoOutput (m : Nat → Dy) (i j : Nat) : Dy :=
  let row := fun (i : Nat) => if i = 0 then [(1 : Int), 1, 1, 0] else [0, 1, -1, -1]
  (List.range 4).foldl (fun acc x => (List.range 4).foldl (fun acc n =>
    let k := (row i).getD x 0 * (row j).getD n 0
    if k = 0 then acc else Dy.add acc ((m (4 * x + n)).mul (.ofInt k))) acc) Dy.zero

end Sys2Proof.Machine
end

