-- ==== Sys2Proof/Machine/Gradient.lean ====
section
/-! DEFINITION. The arithmetic of on-line head adaptation (R362, R365, R369 to R374): the forward and backward products of a step, the
update of a row, and the quantisation into a bank. The spec gives no tiling for the pair's products, so the last places of a sum of
products are free (log 40); every narrowing rounds under R140 (R373). -/

namespace Sys2Proof.Machine

/-- A number rounded to FP32. -/
def fl (x : Dy) : Dy := of32 (to32 x)

/-- An FP32 word moved by units in the last place, within the finite words of its sign. -/
def moveUlps (w : Nat) (d : Int) : Nat :=
  w / 2 ^ 31 * 2 ^ 31 + (max 0 (min (((w % 2 ^ 31 : Nat) : Int) + d) 0x7F7FFFFF)).toNat

/-- A sum of products in float mode (R370): the exact sum as FP32, off by what the order of its partial sums makes of it, which is
free (log 40). -/
def pairDot (xs ws : List Dy) : Dy :=
  let exact := (xs.zip ws).foldl (fun s p => s.add (p.1.mul p.2)) .zero
  if exact.isZero then .zero else of32 (moveUlps (to32 exact) (Config.sumPlace (xs.map to32) (ws.map to32)))

/-- A row of numbers as codes of an FP8 format with the row exponent derived by first pass, as the numbers that the codes stand for
(R151, R370). -/
def toFp8 (fmt : Nat) (xs : List Dy) : List Dy :=
  let lo := xs.foldl (fun m x => if x.lt m then x else m) .zero
  let hi := xs.foldl (fun m x => if m.lt x then x else m) .zero
  let e := (rowExponent fmt 0 lo hi).1
  xs.map fun x => ((elemVal fmt 0 (encodeOut fmt 0 e x).1).1).shift e

/-- The function between the layers, as the row unit forms it (R188), and its derivative in FP32 (R370). -/
def actFn (fn : Nat) (x : Dy) (i : Nat) : Dy := of32 (fnResult fn [to32 x] i (elemFn fn x .zero .zero) .zero).1
def actDeriv (fn : Nat) (x : Dy) : Dy :=
  match fn with
  | 0x05 => let s := sigmoidDy x; fl (s.mul ((Dy.ofInt 1).sub s))
  | 0x06 => let t := tanhDy x; fl ((Dy.ofInt 1).sub (t.mul t))
  -- φ(x) = e^(−x²/2) / √(2π), and 1 / √(2π) = (2 / √π) / (2 √2)
  | _ => fl ((phiDy x).add (x.mul (((expDy ((x.mul x).neg.shift (-1))).mul ⟨twoOverRootPiFix, -256⟩).mul
      ⟨((isqrt (2 ^ 511) : Nat) : Int), -257⟩)))

/-- A sample as a step uses it: inputs, class, and weight. -/
structure StepIn where
  xs : List Dy
  cls : Nat
  weight : Nat

/-- A matrix transposed: column i of rows. -/
def column (rows : List (List Dy)) (i : Nat) : List Dy := rows.map fun r => r.getD i .zero

/-- dz of a sample: (p − onehot(y)) × r / batch, as FP8 (R369, R370). -/
def lossGrad (batch : Nat) (z : List Dy) (x : StepIn) : List Dy :=
  let p := (rowFn 0x10 z [] [] .zero).zipIdx.map fun q => of32 (fnResult 0x10 (z.map to32) q.2 q.1 .zero).1
  let r : Dy := ⟨(x.weight : Int), -4⟩
  toFp8 10 (p.zipIdx.map fun q => fl ((((if q.2 = x.cls then q.1.sub (.ofInt 1) else q.1).mul r).div (.ofInt batch))))

/-- The gradient rows of each layer, as FP8 E5M2 (R369, R370): `w0` and `w1` give a weight of a layer by row and column. -/
def gradients (d : AdaptDesc) (w : Nat → Nat → Nat → Dy) (xs : List StepIn) : List (List (List Dy)) :=
  match d.layers with
  | [] => []
  | [l0] =>
    let row := fun o => (List.range l0.nIn).map fun i => w 0 o i
    let dz := xs.map fun x => lossGrad d.batch ((List.range l0.nOut).map fun o => pairDot x.xs (row o)) x
    [(List.range l0.nOut).map fun o => toFp8 10 ((List.range l0.nIn).map fun i => pairDot (column dz o) (xs.map fun x => x.xs.getD i .zero))]
  | l0 :: l1 :: _ =>
    let as' := xs.map fun x => (List.range l0.nOut).map fun o => pairDot x.xs ((List.range l0.nIn).map fun i => w 0 o i)
    let hs := as'.map fun a => toFp8 9 (a.zipIdx.map fun p => actFn d.actFn p.1 p.2)
    let dz := (xs.zip hs).map fun p =>
      lossGrad d.batch ((List.range l1.nOut).map fun o => pairDot p.2 ((List.range l1.nIn).map fun i => w 1 o i)) p.1
    let g1 := (List.range l1.nOut).map fun o => toFp8 10 ((List.range l1.nIn).map fun i => pairDot (column dz o) (column hs i))
    let dh := (dz.zip as').map fun p => toFp8 10 ((List.range l1.nIn).map fun i =>
      fl ((pairDot p.1 ((List.range l1.nOut).map fun o => w 1 o i)).mul (actDeriv d.actFn (p.2.getD i .zero))))
    let g0 := (List.range l0.nOut).map fun o =>
      toFp8 10 ((List.range l0.nIn).map fun i => pairDot (column dh o) (xs.map fun x => x.xs.getD i .zero))
    [g0, g1]

/-- x^t rounded to FP32, by squaring with 100 significant bits. -/
def powDy : Nat → Dy → Nat → Dy
  | 0, _, _ => .ofInt 1
  | k + 1, x, t =>
    let h := powDy k ((x.mul x).roundSig 100) (t / 2)
    if t % 2 = 1 then (h.mul x).roundSig 100 else h

/-- One element's update (R372), each operation in FP32: new m, v and w. -/
def updateElem (d : AdaptDesc) (t : Nat) (g m v w : Dy) : Dy × Dy × Dy :=
  let one := Dy.ofInt 1
  let b1 := of32 d.beta1
  let b2 := of32 d.beta2
  let m' := fl ((fl (b1.mul m)).add (fl ((fl (one.sub b1)).mul g)))
  let v' := fl ((fl (b2.mul v)).add (fl ((fl (one.sub b2)).mul (fl (g.mul g)))))
  let mh := fl (m'.div (fl (one.sub (fl (powDy 32 b1 t)))))
  let vh := fl (v'.div (fl (one.sub (fl (powDy 32 b2 t)))))
  let q := fl (mh.div (fl ((fl (sqrtDy vh)).add (of32 d.eps))))
  let u := fl ((of32 d.lr).mul (fl (q.add (fl ((of32 d.wd).mul w)))))
  (m', v', fl (w.sub u))

/-- A clamp of an exponent to −32 to +31 (R371). -/
def clampExp (e : Int) : Int := max (-32) (min e 31)

/-- The least e with v ≤ 2^e; −32 for 0 (R371). -/
def varExp (v : Dy) : Int := if v.m ≤ 0 then -32 else clampExp (leastExp v (.ofInt 1))

/-- The code of a variance under an exponent, and the variance of a code (R371). -/
def varCode (e : Int) (v : Dy) : Nat :=
  if v.m ≤ 0 then 0
  else
    let u := 255 + log2Eighths v - 8 * e
    if u < 1 then 0 else min u.toNat 255
def varVal (e : Int) (u : Nat) : Dy := if u = 0 then .zero else pow2Eighths (8 * e + (u : Int) - 255)

namespace State

/-- A layer's weights, momentum codes, variance codes and their exponents in GDDR6 (R363): byte addresses. -/
def masterAt (l : AdaptLayer) (o i : Nat) : Nat := 64 * l.master + 2 * (o * l.nIn + i)
def stateAt (l : AdaptLayer) : Nat := 64 * l.state

/-- A master weight. -/
def masterW (s : State) (l : AdaptLayer) (o i : Nat) : Dy := floatVal bf16 (leNat (s.gddrRd (masterAt l o i) 2))

/-- update_row(o) of a layer by its gradient row (R371, R372). -/
def updateRow (s : State) (d : AdaptDesc) (t : Nat) (l : AdaptLayer) (o : Nat) (g : List Dy) : State :=
  let n := l.nOut * l.nIn
  let b := stateAt l
  let byte := fun a => leNat (s.gddrRd a 1)
  let em := toSigned 8 (byte (b + 2 * n + o))
  let ev := toSigned 8 (byte (b + 2 * n + l.nOut + o))
  let new := (List.range l.nIn).map fun i =>
    let m := (Dy.ofInt (toSigned 8 (byte (b + o * l.nIn + i)))).shift em
    let v := varVal ev (byte (b + n + o * l.nIn + i))
    updateElem d t (g.getD i .zero) m v (s.masterW l o i)
  let mMax := new.foldl (fun x e => if x.lt e.1.abs then e.1.abs else x) .zero
  let vMax := new.foldl (fun x e => if x.lt e.2.1 then e.2.1 else x) .zero
  let em' := (rowExponent 2 0 .zero mMax).1
  let ev' := varExp vMax
  let ms := new.map fun e => BitVec.ofNat 8 (encodeOut 2 0 em' e.1).1
  let vs := new.map fun e => BitVec.ofNat 8 (varCode ev' e.2.1)
  let ws := new.flatMap fun e => leBytes 2 (encodeFloat bf16 e.2.2).1
  ((((s.gdWr (masterAt l o 0) ws).gdWr (b + o * l.nIn) ms).gdWr (b + n + o * l.nIn) vs).gdWr (b + 2 * n + o)
    [BitVec.ofNat 8 (ofSigned 8 em')]).gdWr (b + 2 * n + l.nOut + o) [BitVec.ofNat 8 (ofSigned 8 ev')]

/-- The byte address of a capture's slot, and its header (R365). -/
def captureAt (d : AdaptDesc) (n : Nat) : Nat :=
  let nIn := match d.layers with | l :: _ => l.nIn | [] => 0
  64 * d.capBase + n % 2 ^ d.capLog2 * (64 + ru64 nIn)

/-- A sample as the step reads it; none where its slot holds another capture (R368). -/
def sampleIn (s : State) (d : AdaptDesc) (x : Sample) : Option StepIn :=
  let a := captureAt d x.cap
  let h := s.gddrRd a 64
  if le h 0x18 4 ≠ x.cap then none
  else
    let nIn := match d.layers with | l :: _ => l.nIn | [] => 0
    let e := toSigned 8 (le h 0x0C 1)
    some { xs := (s.gddrRd (a + 64) nIn).map fun c => ((elemVal d.actFmt (le h 0x0D 1) c.toNat).1).shift e, cls := x.cls, weight := x.weight }

/-- The first rows of a step, in the order of the layers, updated with the gradients of its batch (R369). -/
def stepRows (s : State) (d : AdaptDesc) (t : Nat) (batch : List Sample) (rows : Nat) : State :=
  let xs := batch.filterMap (s.sampleIn d)
  let w := fun l o i => match d.layers[l]? with | some x => s.masterW x o i | none => .zero
  let gs := (d.layers.zip (gradients d w xs)).flatMap fun p => p.2.zipIdx.map fun r => (p.1, r.2, r.1)
  (gs.take rows).foldl (fun s g => s.updateRow d t g.1 g.2.1 g.2.2) s

/-- The rows of a job's layers. -/
def adaptRows (d : AdaptDesc) : Nat := (d.layers.map (·.nOut)).foldl (· + ·) 0

/-- A step in progress is abandoned: the rows it had updated, a free number of them, keep their new values (R382). -/
def abandonStep (s : State) (j : Nat) (a : AdaptSt) : State :=
  match a.run with
  | none => s
  | some r =>
    let (f, s1) := s.draw
    s1.stepRows a.desc (s1.getF (feSlm j) FE_SLM_ADSTEP_t) r.batch (f % (adaptRows a.desc + 1))

/-- A layer quantised into a bank, and the elements saturated (R374). -/
def quantise (s : State) (a : AdaptDesc) (i : Nat) (l : AdaptLayer) (b : Nat) : State × Nat :=
  let fmt := a.wtFmt.getD i 2
  let sc := a.scales.getD i []
  let qs := (List.range l.nOut).flatMap fun o => (List.range l.nIn).map fun c =>
    encodeOut fmt 0 (toSigned 8 (sc.getD o 0)) (s.masterW l o c)
  let bytes := packCodes fmt (qs.map (·.1))
  (s.gdWr (64 * (l.key + b * a.bankStride)) bytes, (qs.filter (·.2)).length)

/-- init copied to master, every optimiser code 0 and every exponent −32 (R380, R381); a fresh start has the whole state area
zeroed. -/
def adaptInit (s : State) (a : AdaptDesc) (exps : Nat) : State :=
  a.layers.foldl (fun s l =>
    let n := l.nOut * l.nIn
    let s1 := s.gdWr (64 * l.master) (s.gddrRd (64 * l.init) (2 * n))
    s1.gdWr (stateAt l) (zeros (2 * n) ++ List.replicate (2 * l.nOut) (BitVec.ofNat 8 exps))) s

end State

end Sys2Proof.Machine
end

