-- ==== Sys2Proof/Machine/Caps.lean ====
section
/-! DEFINITION. The capability list (R49 to R55, R636): which entries each page holds, their bodies, and the words a
read of them returns. -/

namespace Sys2Proof.Machine

/-- The capability entries of a kind of page, in ascending cap_id: the ID and the words of the body (R55, R84, R124,
R203, R319, R359, R384, R404, R469, R497, R535, R556). The body of entry 0x0023 is not given: a free value (log 15). -/
def capEntries : Kind → List (Nat × List Nat)
  | .dv => [(0x0001, [10 * 2 ^ 16 + 0x100]),
      (0x0020, [4 * 2 ^ 24 + 128 * 2 ^ 16 + 3 * 2 ^ 8 + 2]), (0x0021, [8 * 2 ^ 8 + 2]), (0x0022, [64 * 2 ^ 16 + 4096]),
      (0x0023, (Config.codebookCapBody.take 16).map (·.toNat)),
      (0x0040, [2000 * 2 ^ 16 + 2 * 2 ^ 8 + 32, 4194304])]
  | .sc => [(0x00A0, [32 * 2 ^ 16 + 1440])]
  | .feCommon => [(0x0010, [4500 * 2 ^ 16 + 4 * 2 ^ 8 + 8, 0xF1F]), (0x0011, [4096 * 2 ^ 16 + 4 * 2 ^ 12 + 65]),
      (0x0012, [24 * 2 ^ 16 + 0x3F])]
  | .mxCommon => [(0x0050, [14336 * 2 ^ 16 + 125 * 2 ^ 8 + 8]), (0x0051, [128 * 2 ^ 16 + 8 * 2 ^ 8 + 8])]
  | .nsCommon => [(0x0060, [800 * 2 ^ 16 + 4 * 2 ^ 8 + 2, 4096 * 2 ^ 16 + 512])]
  | .pxCommon => [(0x0090, [4096 * 2 ^ 16 + 63 * 2 ^ 8 + 32])]
  | .tzCommon => [(0x0070, [3 * 2 ^ 24 + 4 * 2 ^ 16 + 32, 256 * 2 ^ 16 + 224])]
  | .gd => [(0x0030, [2048 * 2 ^ 16 + 64 * 2 ^ 8 + 64, 128 * 2 ^ 8 + 16])]
  | .wn => [(0x0031, [256 * 2 ^ 16 + 4 * 2 ^ 8 + 64, 32])]
  | .tb => [(0x0080, [4 * 2 ^ 24 + 16 * 2 ^ 16 + 16 * 2 ^ 8 + 16])]
  | _ => []

/-- The page after this one, in ascending BAR0 offset, that holds entries, as the address of its first entry; 0 when
this is the last (R636). -/
def capNextPage : Kind → Nat
  | .dv => scPage + 0xE00 | .sc => feCommonPage + 0xE00 | .feCommon => mxCommonPage + 0xE00
  | .mxCommon => nsCommonPage + 0xE00 | .nsCommon => pxCommonPage + 0xE00 | .pxCommon => tzCommonPage + 0xE00
  | .tzCommon => gdPage + 0xE00 | .gd => wnPage + 0xE00 | .wn => tbPage + 0xE00 | _ => 0

/-- The words of a page's entries laid out from an address: version 1, body_words and cap_id, then next / 4, then the
body (R49). -/
def capLayout (nextPage : Nat) : Nat → List (Nat × List Nat) → List Nat
  | _, [] => []
  | a, (id, body) :: es =>
    let after := a + 8 + 4 * body.length
    let nxt := if es.isEmpty then nextPage else after
    (2 ^ 24 + body.length * 2 ^ 16 + id) :: nxt / 4 :: body ++ capLayout nextPage after es

/-- The capability words of a page, from its first entry. -/
def capWordsOf (page : Nat) (k : Kind) : List Nat := capLayout (capNextPage k) (page + capFirst k) (capEntries k)

/-- The capability word at an offset of a page, where one lies there. -/
def capWord (page : Nat) (k : Kind) (off : Nat) : Option Nat :=
  if off % 4 ≠ 0 ∨ off < capFirst k ∨ capFirst k = 0 then none
  else (capWordsOf page k)[(off - capFirst k) / 4]?

end Sys2Proof.Machine
end

