-- ==== Sys2Proof/Machine/Operands.lean ====
section
/-! DEFINITION. The path of a register access over Strings (R30 to R43, R600, R608): who answers, what is refused and
counted, and how a written word meets the access codes of its fields. -/

namespace Sys2Proof.Machine

/-- The clock domain of a page's block, as R559 numbers them. The spec names no domain for a block's common page:
DEDUCED from the domains of R21 (log 16). -/
def clockDomain (k : Kind) (i : Nat) : Nat :=
  match k with
  | .dv | .pc => 2
  | .ppMb | .ppSess | .sc => 1
  | .feCommon | .fePort | .feStrm | .feSlm => 29
  | .mxCommon => 5
  | .mxCh => 5 + i
  | .nsCommon | .nsCh => 55
  | .pxCommon | .pxFault | .pxCmd | .pxVr => 4
  | .tzCommon => 52
  | .tzPort => 52 + i
  | .clCommon | .gd | .dmCommon | .dmCh | .wn | .wnTab => 51
  | .tb => 57
  | .ck | .pw | .wx => 0
  | .rk | .clRink => 31 + i
  | .cr | .clCore => 31 + i / 8

/-- The clock domains that run in a power state: all in Schuss and Glide, then as R566 lists them. -/
def stateRuns (ps dom : Nat) : Bool :=
  match ps with
  | 2 => [0, 1, 2, 3, 4, 51, 55, 56, 57, 58, 59].contains dom || (5 ≤ dom && dom ≤ 12) || (52 ≤ dom && dom ≤ 54)
  | 3 => [0, 1, 2, 3, 4, 55, 57, 58, 59].contains dom
  | 4 => [0, 1, 57].contains dom
  | 5 => [0, 57].contains dom
  | _ => true

namespace State

/-- The CK_ enable of a clock domain in the class of a power state (R559, R562). -/
def ckEnable (s : State) (ps dom : Nat) : Bool :=
  let w := match ps with
    | 2 => (s.word (ckPage + 0x48), s.word (ckPage + 0x4C))
    | 3 => (s.word (ckPage + 0x50), s.word (ckPage + 0x54))
    | _ => (s.word (ckPage + 0x40), s.word (ckPage + 0x44))
  if dom < 32 then bit w.1 dom else bit w.2 (dom - 32)

/-- PG_CTRL's enable of a page in the class of a power state (R33, R562). -/
def pgEnable (s : State) (ps page : Nat) : Bool :=
  bit (s.word (page + 0xC)) (match ps with | 2 => 3 | 3 => 4 | _ => 2)

/-- The power state whose clocks are in force: a settled state, or the running class while the sequencer enters or
exits (DEDUCED, log 16). -/
def clockState (s : State) : Nat := if s.psState ≤ 5 then s.psState else 0

/-- The block clock of a page is stopped (PG_STAT.clk_off; R36, R562); in Chalet and Off-season the enables are
ignored. -/
def clkOff (s : State) (page : Nat) : Bool :=
  match pageInfo page with
  | none => false
  | some (k, i) =>
    let ps := s.clockState
    let dom := clockDomain k i
    !stateRuns ps dom || (ps ≤ 3 && (!s.ckEnable ps dom || !s.pgEnable ps page))

/-- A soft reset of the page is in progress (PG_STAT.reset_busy; R35). -/
def resetBusy (s : State) (page : Nat) : Bool := s.time.elapsed < tabGet (fun _ => 0) s.softBusy page

/-- A page answers at this page address: it exists, its domain is live, and before READY only DV_ and SC_ answer
(R31, R608). -/
def answers (s : State) (page : Nat) : Bool :=
  match pageInfo page with
  | none => false
  | some (k, _) => s.domLive page && (s.readyReached || k == .dv || k == .sc)

/-- An access that nothing answers: counted in DV_BAD_CNT and recorded in DV_BAD_ADDR (R31, R56). -/
def badAccess (s : State) (a : Agent) (bar off : Nat) (write : Bool) : State :=
  let w := b01 write * 2 ^ 31 + b01 (a == .puppeteer) * 2 ^ 30 + bar * 2 ^ 28 + off % 2 ^ 26
  (s.satF dvPage DV_BAD_CNT_count).setWord (dvPage + 0x44) w

/-- An access error on a page: counted with its cause, recorded, and shown in PG_IRQ_STAT.err (R33, R37). -/
def pgErr (s : State) (a : Agent) (page off cause : Nat) (write : Bool) : State :=
  let s1 := (s.satF page PG_ERR_CNT_count).setF page PG_ERR_CNT_last_cause cause
  let at' := (page + off) % bar4
  (s1.setWord (page + 0x24) (b01 write * 2 ^ 31 + b01 (a == .puppeteer) * 2 ^ 30 + at' % 2 ^ 26)).raise page 31

/-- The host may not reach these registers while PC_CTRL.host_read is 0 (R600). -/
def hostReadBars (s : State) (a : Agent) (page off : Nat) (write : Bool) : Bool :=
  a == .host && !s.flag pcPage PC_CTRL_host_read &&
    ((0xF00 ≤ off && off ≤ 0xFA7) ||
      (write && page == pcPage && (off == 0x40 || (0x80 ≤ off && off < 0x180 && off % 16 == 0))))

/-- The register holds a field that PG_LOCK guards (R40). -/
def lockGuards (r : RegRow) : Bool := r.fields.any fun f => f.acc == .rw || f.acc == .w1s || f.acc == .wo

/-- The page's lock refuses the write (R40). -/
def lockRefuses (s : State) (a : Agent) (page off : Nat) (r : RegRow) : Bool :=
  a == .host && s.flag page PG_LOCK_lock && lockGuards r &&
    !(off == 0x14 || off == 0x18 || off == 0x20 || off == 0x2C) && !(0xF00 ≤ off && off ≤ 0xFA7 && isCounting page)

/-- One written field under its access code (R11, R12): the word so far and whether a reserved encoding was met. W1S
fields start an action and read 0; WO fields are `applyFields`' concern. -/
def applyField (v : Nat) (acc : Nat × Bool) (f : FieldRow) : Nat × Bool :=
  let new := bits v f.hi f.lo
  match f.acc with
  | .rw => if f.legal.ok new then (setBits acc.1 f.hi f.lo new, acc.2) else (acc.1, true)
  | .w1c => (clrMask acc.1 (new * 2 ^ f.lo), acc.2)
  | _ => acc

/-- A written word under the access codes of a register's fields: RW, W1C and RSV fields at once, a WO field by the
first write since it was re-armed, counted with cause 0x03 later (R41); a reserved encoding keeps its field and is
counted once with cause 0x01 (R12). -/
def applyFields (s : State) (a : Agent) (page off : Nat) (r : RegRow) (v : Nat) : State :=
  let key := page + off
  let (w, bad) := r.fields.foldl (applyField v) (s.word key, false)
  let wo := r.fields.filter fun f => f.acc == .wo
  let set := s.woDone.contains key
  let w' := if set then w else wo.foldl (fun w f => setBits w f.hi f.lo (bits v f.hi f.lo)) w
  let s1 := s.setWord key w'
  let s2 := if wo.isEmpty || set then s1 else { s1 with woDone := key :: s1.woDone }
  let s3 := if bad then s2.pgErr a page off 0x01 true else s2
  if !wo.isEmpty && set then s3.pgErr a page off 0x03 true else s3

/-- The register write of a page that has no further effect. -/
def plainWrite (a : Agent) (page off v : Nat) (s : State) : State :=
  match pageInfo page with
  | none => s
  | some (k, _) =>
    match regRow k off with
    | none => s
    | some r => s.applyFields a page off r v

/-- The bar of a page's address, and the offset in it. -/
def barOf (key : Nat) : Nat := if key < bar4 then 0 else 1

/-! ### Wake events (R570, R572), which a host request in Chalet or Off-season is -/

/-- An entry is aborted: exiting, reason 8, PS_REFUSED (R572). -/
def abortEntry (s : State) : State :=
  let s1 := ((s.setF pwPage PW_PS_STAT_state 7).setF pwPage PW_PS_STAT_target 0).setF pwPage PW_PS_STAT_refuse 8
  (((s1.satF pwPage PW_PS_CNT_refused).raise pwPage 2)).postRecord pwPage 0x0807 0xFF

/-- A wake event reaches the always-on domain, its source laid out as PW_WAKE (R570 to R572, R627). -/
def wake (s : State) (src : Nat) : State :=
  let st := s.psState
  if st = 6 then s.abortEntry
  else if 2 ≤ st ∧ st ≤ 5 then
    let s1 := ((s.setF pwPage PW_WAKE_SRC_src src).setF pwPage PW_PS_STAT_state 7).setF pwPage PW_PS_STAT_target 0
    if st = 5 then
      { s1 with power := { s1.power with supplyEn := true, wakeAt := if s1.power.pwrOk then none else some s1.time.elapsed } }
    else s1
  else s

/-- A host request now waits for an exit (R570, R32). -/
def hostWaits (s : State) : Bool := s.psState == 4 || s.psState == 5 || !s.power.heldReqs.isEmpty

/-- A host request that wakes the device, or follows one that did, completes after the exit (R570). -/
def holdHost (s : State) (r : HeldReq) : State :=
  let s1 := { s with power := { s.power with heldReqs := s.power.heldReqs ++ [r] } }
  if s.psState = 4 ∨ s.psState = 5 then s1.wake (2 ^ 16) else s1

/-- A register access of the host in those states. -/
def holdReg (s : State) (write : Bool) (key v : Nat) : State :=
  s.holdHost (.reg write (if key < bar4 then .bar0 else .bar4) (key % bar4) 4 v)

/-- A 32-bit aligned write of an agent to a register of a page: who refuses it, in order, and else its effect
(R31, R35 to R37, R40, R570, R600, R608). -/
def guardedWrite (s : State) (a : Agent) (page off v : Nat) (effect : Nat → State → State) : State :=
  if a == .host && s.hostWaits then s.holdReg true (page + off) v
  else if !s.answers page then s.badAccess a (barOf page) ((page + off) % bar4) true
  else
    match pageInfo page with
    | none => s
    | some (k, _) =>
      if s.resetBusy page && 0x40 ≤ off then s.pgErr a page off 0x05 true
      else if s.clkOff page && 0x40 ≤ off then s.pgErr a page off 0x06 true
      else if (capWord page k off).isSome then s
      else
        match regRow k off with
        | none => if 0x30 ≤ off ∧ off < 0x40 then s else s.pgErr a page off 0x07 true
        | some r =>
          if s.hostReadBars a page off true then s.pgErr a page off 0x02 true
          else if s.lockRefuses a page off r then s.pgErr a page off 0x02 true
          else effect v s

/-- A write that the present state refuses (R37, cause 0x08). -/
def refuse (s : State) (a : Agent) (page off : Nat) : State := s.pgErr a page off 0x08 true

/-- PG_CTRL.enable of a page. -/
def enabled (s : State) (page : Nat) : Bool := s.flag page PG_CTRL_enable

end State

end Sys2Proof.Machine
end

