-- ==== Sys2Proof/Machine/Time.lean ====
section
/-! DEFINITION. The timebase, the PPS servo, encoders, markers and pins as commands (R536 to R556, R637, R639). -/

namespace Sys2Proof.Machine

/-- A marker at rest. -/
def MarkerSt.idle : MarkerSt := { queue := [], activeEnd := none }

namespace State

/-- Some job is bound (PP_MB_STAT.bound, R468). -/
def jobBound (s : State) : Bool := s.getF ppMbPage PP_MB_STAT_bound != 0

/-! ### The counter -/

/-- The rounded increment of one timebase cycle, in 2^-32 ns: TB_INC × (1 + y × 10^-9), y in 2^-8 ppb (R536). -/
def increment (s : State) : Nat :=
  let inc : Nat := s.getF tbPage TB_INC_HI_ns * 2 ^ 32 + s.getF tbPage TB_INC_LO_frac
  let y := toSigned 32 (s.getF tbPage TB_FREQ_y)
  (rdivInt ((inc : Int) * ((256000000000 : Int) + y)) 256000000000).toNat

/-- TB_HOLD counts the seconds of a holdover in progress (R541). -/
def showHold (s : State) : State :=
  if s.getF tbPage TB_STAT_state = 3 then
    s.setF tbPage TB_HOLD_seconds ((s.time.elapsed - s.time.holdStart) / 2 ^ 32 / 1000000000)
  else s

/-- The timebase has reached the alarm, which wakes the device where PW_WAKE enables it (R570). -/
def alarmAt (s : State) (old : Nat) : State :=
  let al := s.get64 pwPage PW_ALARM_LO_ns_lo PW_ALARM_HI_ns_hi
  if s.flag pwPage PW_WAKE_alarm && old < al && al ≤ s.ns then s.wake (2 ^ 17) else s

/-- One timebase cycle passes (R536): what an empty queue does (log 1). -/
def tick (s : State) : State :=
  let d := s.increment
  let t := { s.time with now := (s.time.now + d) % 2 ^ 96, elapsed := s.time.elapsed + d }
  (({ s with time := t }).showHold).alarmAt s.ns

/-- The timebase loaded or stepped; elapsed timebase is not touched (R538, R541, R637). -/
def setNow (s : State) (v : Nat) : State := { s with time := { s.time with now := v % 2 ^ 96 } }

/-- A write to TB_SET_HI loads the timebase, or is refused while a job is bound (R538). -/
def timebaseSetWrite (a : Agent) (v : Nat) (s : State) : State :=
  if s.jobBound then s.refuse a tbPage 0x54
  else
    let s1 := plainWrite a tbPage 0x54 v s
    s1.setNow (s1.get64 tbPage TB_SET_LO_ns_lo TB_SET_HI_ns_hi * 2 ^ 32)

/-! ### The PPS servo -/

/-- The servo enters a state: event bit 1 when it enters or leaves LOCKED (R541, R554). -/
def servoTo (s : State) (st : Nat) : State :=
  let old := s.getF tbPage TB_STAT_state
  let s1 := s.setF tbPage TB_STAT_state st
  let s2 := if st = 1 then { s1 with time := { s1.time with ppsSince := s1.time.elapsed, inLock := 0 } } else s1
  s2.raiseIf ((old == 2) != (st == 2)) tbPage 1

/-- A write to TB_CTRL: pps_en = 1 takes a free servo to ACQUIRE with S = 0 and restarts the drift history, pps_en = 0
frees it and keeps y (R541, R542). -/
def ppsEnableWrite (a : Agent) (v : Nat) (s : State) : State :=
  let s1 := plainWrite a tbPage 0x40 v s
  if bit v 0 then
    let s2 := { s1 with time := { s1.time with drift := [] } }
    if s2.getF tbPage TB_STAT_state = 0 then
      ({ s2 with time := { s2.time with servoS := 0 } }).servoTo 1
    else s2
  else s1.servoTo 0

/-- S and y updated from the phase error of an accepted edge (R540): y in 2^-8 ppb; at the limit y is clamped and S
keeps its value. -/
def servoUpdate (s : State) (e : Int) : State :=
  let kp := s.getF tbPage TB_SERVO_kp
  let ki := s.getF tbPage TB_SERVO_ki
  let s' := s.time.servoS + e
  let num := -(e * 2 ^ ki + s' * 2 ^ kp) * 256
  let den : Nat := 2 ^ (32 + kp + ki)
  let lim : Int := 256000 * (s.getF tbPage TB_SERVO_max_ppm : Int)
  if num > lim * (den : Int) then s.setF tbPage TB_FREQ_y (ofSigned 32 lim)
  else if num < -lim * (den : Int) then s.setF tbPage TB_FREQ_y (ofSigned 32 (-lim))
  else ({ s with time := { s.time with servoS := s' } }).setF tbPage TB_FREQ_y (ofSigned 32 (rdivInt num den))

/-- The phase error e of a capture c, both in 2^-32 ns: c − n × 10^9 for the nearest n, a tie taking the lower
(R539). -/
def phaseError (c : Int) : Int :=
  let sec : Int := 1000000000 * 2 ^ 32
  let r := c % sec
  if 2 * r ≤ sec then r else r - sec

/-- An accepted edge in ACQUIRE (R540, R541). -/
def acquireEdge (s : State) (e : Int) : State :=
  let abs := e.natAbs
  let one := 2 ^ 32
  if abs > 1000 * s.getF tbPage TB_LOCK_step_us * one && s.flag tbPage TB_CTRL_step_en && !s.jobBound then
    let s1 := s.setNow (ofSigned 96 ((s.time.now : Int) - e))
    { s1 with time := { s1.time with servoS := 0, inLock := 0 } }
  else
    let s1 := s.servoUpdate e
    let n := if abs ≤ s.getF tbPage TB_LOCK_lock_ns * one then s1.time.inLock + 1 else 0
    let s2 := { s1 with time := { s1.time with inLock := n } }
    if n = 4 then s2.servoTo 2 else s2

/-- An accepted edge in LOCKED (R541, R542): spent there unless it takes the servo out. -/
def lockedEdge (s : State) (e : Int) : State :=
  let s1 := s.servoUpdate e
  if e.natAbs > 8 * s.getF tbPage TB_LOCK_lock_ns * 2 ^ 32 then s1.servoTo 1
  else
    let ys := (toSigned 32 (s1.getF tbPage TB_FREQ_y) :: s1.time.drift).take 64
    let mean := rdivInt (ys.foldl (· + ·) 0) ys.length
    ({ s1 with time := { s1.time with drift := ys } }).setF tbPage TB_DRIFT_drift (ofSigned 32 mean)

/-- A PPS edge of a polarity (R539 to R543): captured when the servo is on and the polarity is the selected one,
discarded in the cycle of a load or a step, rejected within 999 ms of the last accepted edge, else accepted. -/
def ppsEdge (s : State) (falling withLoad : Bool) : State :=
  if !s.flag tbPage TB_CTRL_pps_en || s.flag tbPage TB_CTRL_pps_fall != falling || withLoad then s
  else
    let tooSoon := match s.time.ppsLast with
      | some t => decide (s.time.elapsed - t < 999000000 * 2 ^ 32)
      | none => false
    if tooSoon then s.satF tbPage TB_STAT_rejected
    else
      let c : Int := (s.time.now : Int) - toSigned 32 (s.getF tbPage TB_PPS_OFF_ns) * 2 ^ 32
      let e := phaseError c
      let s1 := (s.setF tbPage TB_PHASE_e (satSigned 32 (rdivInt e (2 ^ 24)))).raise tbPage 0
      let t := { s1.time with ppsLast := some s1.time.elapsed, ppsSince := s1.time.elapsed }
      let s2 := { s1 with time := t }
      match s2.getF tbPage TB_STAT_state with
      | 1 => s2.acquireEdge e
      | 2 => s2.lockedEdge e
      | 3 => (({ s2 with time := { s2.time with servoS := 0 } }).servoTo 1).acquireEdge e
      | _ => s2

/-- 1.5 s without an accepted edge: holdover (R541). -/
def ppsLost (s : State) : State :=
  let st := s.getF tbPage TB_STAT_state
  if (st = 1 ∨ st = 2) ∧ 1500000000 * 2 ^ 32 ≤ s.time.elapsed - s.time.ppsSince then
    let s1 := (s.servoTo 3).setF tbPage TB_FREQ_y (s.getF tbPage TB_DRIFT_drift)
    let s2 := { s1 with time := { s1.time with holdStart := s1.time.elapsed } }
    ((s2.setF tbPage TB_HOLD_seconds 0).raise tbPage 2).postRecord tbPage 0x0808 0xFF
  else s

/-! ### Encoders -/

/-- ENCODER_ERR: at most once per 1 ms for each encoder (R544). -/
def postEncoder (s : State) (n : Nat) : State :=
  let key := markKey tbPage 0x0409 n
  if s.rateOpen key 1000000 then (s.rateMark key).postRecord tbPage 0x0409 0xFF else s.countEvt tbPage 0x03 1

/-- The accepted levels of an encoder's inputs become these (R544, R546). -/
def encoderEdge (s : State) (n : Nat) (a b : Bool) : State :=
  let oldA := bit s.time.encLevels (2 * n)
  let oldB := bit s.time.encLevels (2 * n + 1)
  let lv := setBits s.time.encLevels (2 * n + 1) (2 * n) (b01 a + 2 * b01 b)
  let s1 := { s with time := { s.time with encLevels := lv } }
  if !s.flag tbPage TB_ENCn_CFG_en n then s1
  else if a != oldA && b != oldB then
    ((s1.satF tbPage TB_ENCn_ERR_count 1 n).raise tbPage 3).postEncoder n
  else if a == oldA && b == oldB then s1
  else
    let up := (if a != oldA then a != oldB else b == oldA) != s.flag tbPage TB_ENCn_CFG_rev n
    s1.wrapF tbPage TB_ENCn_POS_pos (if up then 1 else 2 ^ 32 - 1) n

/-! ### Markers -/

/-- A marker's state. -/
def marker (s : State) (m : Nat) : MarkerSt := tabGet (fun _ => MarkerSt.idle) s.time.markers m

/-- A marker's state replaced; TB_MKm_STAT.pending follows its queue. -/
def setMarker (s : State) (m : Nat) (k : MarkerSt) : State :=
  let t := tabPut (fun _ => MarkerSt.idle) s.time.markers m k
  ({ s with time := { s.time with markers := t } }).setF tbPage TB_MKm_STAT_pending k.queue.length m

/-- How far past its condition a request is: none while it is not due (R548, R550). -/
def lateness (s : State) (m : Nat) (r : MarkerReq) : Option Nat :=
  if r.enc then
    let pos := s.getF tbPage TB_ENCn_POS_pos (s.getF tbPage TB_MKm_CFG_enc_sel m)
    let d := toSigned 32 (pos + 2 ^ 32 - r.target % 2 ^ 32)
    let d' := if s.flag tbPage TB_MKm_CFG_rev m then -d else d
    if 0 ≤ d' then some d'.toNat else none
  else if r.target ≤ s.ns then some (s.ns - r.target) else none

/-- A marker request arrives (R550, R551): queued, queued late, or dropped. -/
def markerEnqueue (s : State) (m : Nat) (r : MarkerReq) : State :=
  let k := s.marker m
  if !s.flag tbPage TB_MKm_CFG_en m || 16 ≤ k.queue.length then
    (s.satF tbPage TB_MKm_STAT_dropped 1 m).raise tbPage 4
  else
    match s.lateness m r with
    | none => s.setMarker m { k with queue := k.queue ++ [r] }
    | some d =>
      let most := if r.enc then s.getF tbPage TB_MKm_LATE_late_cnt m else s.getF tbPage TB_MKm_LATE_late_us m * 1000
      if d ≤ most then
        ((s.setMarker m { k with queue := k.queue ++ [r] }).satF tbPage TB_MKm_STAT_late 1 m).raise tbPage 5
      else (s.satF tbPage TB_MKm_STAT_dropped 1 m).raise tbPage 5

/-- A write to TB_MKm_ARM: the mode, and with go a software request (R547). -/
def markerArmWrite (a : Agent) (m v : Nat) (s : State) : State :=
  let s1 := plainWrite a tbPage (0x110 + 0x20 * m) v s
  if !bit v 31 then s1
  else
    let enc := bit v 30
    let t := s1.get64 tbPage TB_MKm_TGT_LO_tgt_lo TB_MKm_TGT_HI_tgt_hi m
    s1.markerEnqueue m ⟨enc, if enc then t % 2 ^ 32 else t⟩

/-- The requests that are due leave the queue and start or restart one pulse (R548, R549). -/
def markerDue (s : State) (m : Nat) : State :=
  let k := s.marker m
  let due := k.queue.filter fun r => (s.lateness m r).isSome
  if due.isEmpty then s
  else
    let until' := s.time.elapsed + s.getF tbPage TB_MKm_CFG_width_us m * 1000 * 2 ^ 32
    let s1 := s.setMarker m { queue := k.queue.filter (fun r => (s.lateness m r).isNone), activeEnd := some until' }
    if k.activeEnd.isSome then s1.satF tbPage TB_MKm_STAT_merged due.length m
    else (s1.satF tbPage TB_MKm_STAT_merged (due.length - 1) m).wrapF tbPage TB_MKm_CNT_pulses 1 m

/-- width_us µs have passed: the output goes inactive (R548). -/
def markerPulseEnd (s : State) (m : Nat) : State :=
  let k := s.marker m
  match k.activeEnd with
  | some t => if t ≤ s.time.elapsed then s.setMarker m { k with activeEnd := none } else s
  | none => s

/-- Entry to Chalet or Off-season: pending requests are dropped and counted, outputs go inactive (R552). -/
def markersDrop (s : State) : State :=
  (List.range 16).foldl (fun s m =>
    let n := (s.marker m).queue.length
    (s.setMarker m MarkerSt.idle).satF tbPage TB_MKm_STAT_dropped n m) s

/-! ### Pins -/

/-- A pin shows a level (R553): TB_GPIO_IN follows, and an enabled edge is stamped and raises its event; the stamped edge
wakes the device where PW_WAKE enables it (R570). -/
def pinLevel (s : State) (p : Nat) (level : Bool) : State :=
  let w := s.getF tbPage TB_GPIO_IN_in
  if bit w p == level then s
  else
    let s1 := s.setF tbPage TB_GPIO_IN_in (if level then setBit w p else clrBit w p)
    let on := if level then bit (s.getF tbPage TB_GPIO_EDGE_rise_en) p else bit (s.getF tbPage TB_GPIO_EDGE_fall_en) p
    if on then
      let s2 := (s1.set64 tbPage TB_GPIOp_TS_LO_ns_lo TB_GPIOp_TS_HI_ns_hi s.ns p).raise tbPage (6 + p)
      if bit (s2.getF pwPage PW_WAKE_gpio) p then s2.wake (2 ^ p) else s2
    else s1

/-- After a write to TB_GPIO_OE or TB_GPIO_OUT an output carries its TB_GPIO_OUT bit, and an input the level from outside (R553, R630). -/
def gpioWrite (a : Agent) (off v : Nat) (s : State) : State :=
  let s1 := plainWrite a tbPage off v s
  (List.range 16).foldl (fun s p =>
    s.pinLevel p (if bit (s.getF tbPage TB_GPIO_OE_oe) p then bit (s.getF tbPage TB_GPIO_OUT_out) p else bit s.time.gpioExt p)) s1

/-- The outside gives pin p a level (R553). -/
def pinDrive (s : State) (p : Nat) (level : Bool) : State :=
  let w := s.time.gpioExt
  { s with time := { s.time with gpioExt := if level then setBit w p else clrBit w p } }

/-- A soft reset of the TB_ page acts on the running block (R639): the registers have returned to reset, and every pin is an input
that shows the level from outside. -/
def timeSoftReset (s : State) : State :=
  let t := { s.time with servoS := 0, drift := [], ppsLast := none, inLock := 0, holdStart := 0, markers := [] }
  ({ s with time := t } : State).setF tbPage TB_GPIO_IN_in s.time.gpioExt

end State

/-! ### The commands -/

/-- TIMEBASE_SET (R538). -/
def execTimebaseSet (a : Agent) (v : Word) (s : State) : Host.Outcome State Fault Refusal :=
  (s.guardedWrite a tbPage 0x54 v.toNat (State.timebaseSetWrite a)).done

/-- PPS_ENABLE (R541). -/
def execPpsEnable (a : Agent) (v : Word) (s : State) : Host.Outcome State Fault Refusal :=
  (s.guardedWrite a tbPage 0x40 v.toNat (State.ppsEnableWrite a)).done

/-- PPS_EDGE (R539). -/
def execPpsEdge (falling withLoad : Bool) (s : State) : Host.Outcome State Fault Refusal :=
  s.eng (s.ppsEdge falling withLoad)

/-- PPS_LOST (R541). -/
def execPpsLost (s : State) : Host.Outcome State Fault Refusal := s.eng s.ppsLost

/-- ENCODER_EDGE (R544). -/
def execEncoderEdge (n : Fin 4) (a b : Bool) (s : State) : Host.Outcome State Fault Refusal := s.eng (s.encoderEdge n a b)

/-- ENCODER_POS_WRITE (R546). -/
def execEncoderPosWrite (a : Agent) (n : Fin 4) (v : Word) (s : State) : Host.Outcome State Fault Refusal :=
  (s.guardedWrite a tbPage (0x84 + 0x10 * n) v.toNat (State.plainWrite a tbPage (0x84 + 0x10 * n))).done

/-- MARKER_ARM (R547). -/
def execMarkerArm (a : Agent) (m : Fin 16) (v : Word) (s : State) : Host.Outcome State Fault Refusal :=
  (s.guardedWrite a tbPage (0x110 + 0x20 * m) v.toNat (State.markerArmWrite a m)).done

/-- MARKER_DUE (R548). -/
def execMarkerDue (m : Fin 16) (s : State) : Host.Outcome State Fault Refusal := s.eng (s.markerDue m)

/-- MARKER_PULSE_END (R548). -/
def execMarkerPulseEnd (m : Fin 16) (s : State) : Host.Outcome State Fault Refusal := s.eng (s.markerPulseEnd m)

/-- GPIO_EDGE (R553). -/
def execGpioEdge (pin : Fin 16) (level : Bool) (s : State) : Host.Outcome State Fault Refusal :=
  s.eng ((s.pinDrive pin level).pinLevel pin level)

end Sys2Proof.Machine
end

