-- ==== Sys2Proof/Machine/FrontChain.lean ====
section
/-! DEFINITION. The front-end's fixed-function chain on one line: unpacking (R58, R85, R87), the eight stages (R92 to
R101) on working values, the sample format at the store (R89), and the statistics of a line (R107, R108). Pure
functions of the line, the latched stage words and the table bank. -/

namespace Sys2Proof.Machine

/-- The number of bits of a RAW data type (R58). -/
def rawBits (dt : Nat) : Nat := match dt with | 0x2A => 8 | 0x2B => 10 | 0x2C => 12 | 0x2D => 14 | _ => 16

/-- Samples and bytes of one packing group of a RAW data type: 4 samples in 5 bytes for RAW10, 2 in 3 for RAW12, 4 in 7
for RAW14 (the packing of CSI-2, PRESUMED, log 17). -/
def packGroup (dt : Nat) : Nat × Nat :=
  match dt with | 0x2A => (1, 1) | 0x2B => (4, 5) | 0x2C => (2, 3) | 0x2D => (4, 7) | _ => (1, 2)

/-- The samples of one whole packing group. -/
def unpackGroup (dt : Nat) (g : List Nat) : List Nat :=
  let b := fun i => g.getD i 0
  match dt with
  | 0x2A => [b 0]
  | 0x2B => (List.range 4).map fun i => b i * 4 + b 4 / 4 ^ i % 4
  | 0x2C => [b 0 * 16 + b 2 % 16, b 1 * 16 + b 2 / 16]
  | 0x2D =>
    let low := b 4 + b 5 * 256 + b 6 * 65536
    (List.range 4).map fun i => b i * 64 + low / 64 ^ i % 64
  | _ => [b 0 + b 1 * 256]

/-- The samples of a payload: every sample all of whose bits have arrived. Of a partial RAW14 group the low bits of
the first sample lie in byte 4 and those of the second in bytes 4 and 5; no other partial group holds a whole sample. -/
def unpack (dt : Nat) (payload : List Byte) : List Nat :=
  let (_, nb) := packGroup dt
  let bytes := payload.map (·.toNat)
  let rest := bytes.drop (bytes.length / nb * nb)
  (List.range (bytes.length / nb)).flatMap (fun i => unpackGroup dt ((bytes.drop (i * nb)).take nb))
    ++ (if dt = 0x2D then (unpackGroup dt rest).take (rest.length - 4) else [])

/-- A RAWn sample as a working value (R87). -/
def toWorking (dt x : Nat) : Nat := x * 2 ^ (16 - rawBits dt)

/-- A stage result rounded to nearest with ties away from zero and saturated to 0 to 65,535, with whether it saturated
(R88). -/
def stageOut (num : Int) (den : Nat) : Nat × Bool :=
  let v := rdivInt num den
  if v < 0 then (0, true) else if v > 65535 then (65535, true) else (v.toNat, false)

/-- The stage values of a stripe as words: FE_STRM_STAGE, PED, BL01, BL23, DPC, WB01, WB23, CCM0 to CCM7, CCMO01, CCMO23
and TBL, in this order (R105). -/
structure StageVals where
  w : List Nat
  deriving DecidableEq, Repr

namespace StageVals

/-- Word i of the stage values. -/
def at' (g : StageVals) (i : Nat) : Nat := g.w.getD i 0
/-- The enable bit of a stage: bit 0 black level to bit 7 tone curve (R92, R121). -/
def en (g : StageVals) (b : Nat) : Bool := bit (g.at' 0) b
/-- bl[k] (R94). -/
def bl (g : StageVals) (k : Nat) : Nat := bits (g.at' (2 + k / 2)) (16 * (k % 2) + 15) (16 * (k % 2))
/-- The neighbour distance s (R95). -/
def step (g : StageVals) : Nat := if bit (g.at' 4) 0 then 2 else 1
/-- wb[k] (R99). -/
def wb (g : StageVals) (k : Nat) : Nat := bits (g.at' (5 + k / 2)) (16 * (k % 2) + 15) (16 * (k % 2))
/-- m[i][j] (R100, R121). -/
def ccm (g : StageVals) (i j : Nat) : Int :=
  let n := 4 * i + j
  toSigned 16 (bits (g.at' (7 + n / 2)) (16 * (n % 2) + 15) (16 * (n % 2)))
/-- o_i (R100). -/
def ccmOff (g : StageVals) (i : Nat) : Int := toSigned 16 (bits (g.at' (15 + i / 2)) (16 * (i % 2) + 15) (16 * (i % 2)))
/-- The byte address in stripe memory of the table bank in use (R103, R121). -/
def bank (g : StageVals) : Nat :=
  let t := g.at' 17
  (if bit t 28 then bits t 27 14 else bits t 13 0) * 4096

end StageVals

/-- One channel's line after a stage: the values, and whether the stage saturated each of them (R88). -/
abbrev StageLine := List Nat × List Bool

/-- A stage applied value by value with the column. -/
def mapStage (f : Nat → Nat → Nat × Bool) (vs : List Nat) : StageLine :=
  let rs := vs.zipIdx.map fun p => f p.2 p.1
  (rs.map (·.1), rs.map (·.2))

/-- Black level (R94). -/
def blackLevel (g : StageVals) (k : Nat) (vs : List Nat) : StageLine :=
  mapStage (fun _ v => stageOut ((v : Int) - (g.bl k : Int) + (bits (g.at' 1) 15 0 : Int)) 1) vs

/-- The static-map bit of column x of channel k (R102). -/
def mapBit (mem : Nat → Nat) (bank k x : Nat) : Bool := bit (mem (bank + 0x40000 + k * 0x800 + x / 8)) (x % 8)

/-- The nearest unflagged sample among columns x − j × s or x + j × s, j = 1 to 4, that were received (R95). -/
def nearest (vs : List Nat) (flagged : Nat → Bool) (x s : Nat) (right : Bool) : Option Nat :=
  [1, 2, 3, 4].findSome? fun j =>
    if right then
      if x + j * s < vs.length && !flagged (x + j * s) then vs[x + j * s]? else none
    else if j * s ≤ x && !flagged (x - j * s) then vs[x - j * s]? else none

/-- Static defects (R95): the values and the count of unresolved samples. -/
def staticDefects (mem : Nat → Nat) (g : StageVals) (k : Nat) (vs : List Nat) : List Nat × Nat :=
  let flagged := mapBit mem g.bank k
  let rs := vs.zipIdx.map fun p =>
    let x := p.2
    if flagged x then
      match nearest vs flagged x g.step false, nearest vs flagged x g.step true with
      | some l, some r => (rdiv (l + r) 2, 0)
      | some l, none => (l, 0)
      | none, some r => (r, 0)
      | none, none => (p.1, 1)
    else (p.1, 0)
  (rs.map (·.1), (rs.map (·.2)).sum)

/-- Dynamic defects (R96): the values and the count of replaced samples. -/
def dynamicDefects (g : StageVals) (vs : List Nat) : List Nat × Nat :=
  let s := g.step
  let hi := 16 * bits (g.at' 4) 31 20
  let lo := 16 * bits (g.at' 4) 19 8
  let rs := vs.zipIdx.map fun p =>
    let x := p.2
    if s ≤ x ∧ x + s < vs.length then
      let l := vs.getD (x - s) 0
      let r := vs.getD (x + s) 0
      if p.1 > max l r + hi ∨ p.1 + lo < min l r then (rdiv (l + r) 2, 1) else (p.1, 0)
    else (p.1, 0)
  (rs.map (·.1), (rs.map (·.2)).sum)

/-- A 16-bit little-endian number of stripe memory. -/
def mem16 (mem : Nat → Nat) (a : Nat) : Nat := mem a + 256 * mem (a + 1)

/-- Column flat-field (R97, R102). -/
def flatField (mem : Nat → Nat) (g : StageVals) (k : Nat) (vs : List Nat) : StageLine :=
  mapStage (fun x v =>
    let a := g.bank + k * 0x10000 + 4 * x
    stageOut (((v : Int) + toSigned 16 (mem16 mem a)) * (mem16 mem (a + 2) : Int)) (2 ^ 14)) vs

/-- gz(x) (R98). -/
def shadeGain (mem : Nat → Nat) (g : StageVals) (k linePx x : Nat) : Int :=
  let t := x * 64 * 65536 / linePx
  let j := t / 65536
  let knot := fun i => (mem16 mem (g.bank + 0x42000 + k * 0x100 + 2 * i) : Int)
  rdivInt (knot j * 65536 + (knot (j + 1) - knot j) * ((t % 65536 : Nat) : Int)) 65536

/-- Zone shading (R98). -/
def zoneShading (mem : Nat → Nat) (g : StageVals) (k linePx : Nat) (vs : List Nat) : StageLine :=
  mapStage (fun x v => stageOut ((v : Int) * shadeGain mem g k linePx x) (2 ^ 14)) vs

/-- White balance (R99). -/
def whiteBalance (g : StageVals) (k : Nat) (vs : List Nat) : StageLine :=
  mapStage (fun _ v => stageOut ((v : Int) * (g.wb k : Int)) (2 ^ 12)) vs

/-- The colour matrix over the channels of every pixel (R100). -/
def colourMatrix (g : StageVals) (chans : List (List Nat)) : List StageLine :=
  let c := chans.length
  (List.range c).map fun i =>
    mapStage (fun x _ =>
      let sum := ((List.range c).map fun j => g.ccm i j * ((chans.getD j []).getD x 0 : Int)).foldl (· + ·) 0
      stageOut (sum + g.ccmOff i * 4096) 4096) (chans.getD i [])

/-- Tone curve (R101). -/
def toneCurve (mem : Nat → Nat) (g : StageVals) (k : Nat) (vs : List Nat) : StageLine :=
  mapStage (fun _ v =>
    let i := v / 16
    let e := fun n => (mem16 mem (g.bank + 0x43000 + k * 0x2000 + 2 * n) : Int)
    let e1 := if i = 4095 then e 4095 else e (i + 1)
    stageOut (e i + rdivInt ((e1 - e i) * ((v % 16 : Nat) : Int)) 16) 1) vs

/-- A line as it leaves the chain: the values at tap points 0 to 5, and the counts of R109. -/
structure ChainOut where
  taps : List (List (List Nat))
  dyn : Nat
  unresolved : Nat
  clip : Nat
  deriving DecidableEq, Repr

/-- A stage run on every channel where its enable is 1, else passed unchanged (R93). -/
def perChannel {α : Type} (on : Bool) (f : Nat → List Nat → List Nat × α) (chans : List (List Nat)) : List (List Nat) × List α :=
  if on then
    let rs := chans.zipIdx.map fun p => f p.2 p.1
    (rs.map (·.1), rs.map (·.2))
  else (chans, [])

/-- How many samples of a line some stage saturated; each counts once (R88). `sats` holds the flags of each stage, by channel. -/
def clipCount (sats : List (List (List Bool))) (chans : List (List Nat)) : Nat :=
  (chans.zipIdx.map fun p =>
    (p.1.zipIdx.filter fun q => sats.any fun f => (f.getD p.2 []).getD q.2 false).length).sum

/-- The chain in the order of R92 on the working values of the received pixels, one list per channel. -/
def chain (mem : Nat → Nat) (g : StageVals) (linePx : Nat) (chans : List (List Nat)) : ChainOut :=
  let (v1, c1) := perChannel (g.en 0) (blackLevel g) chans
  let (v2, unres) := perChannel (g.en 1) (staticDefects mem g) v1
  let (v3, dyn) := perChannel (g.en 2) (fun _ => dynamicDefects g) v2
  let (v4, c4) := perChannel (g.en 3) (flatField mem g) v3
  let (v5, c5) := perChannel (g.en 4) (fun k => zoneShading mem g k linePx) v4
  let (v6, c6) := perChannel (g.en 5) (whiteBalance g) v5
  let (v7, c7) :=
    if g.en 6 && chans.length != 1 then
      let rs := colourMatrix g v6
      (rs.map (·.1), rs.map (·.2))
    else (v6, [])
  let (v8, c8) := perChannel (g.en 7) (toneCurve mem g) v7
  ⟨[chans, v1, v3, v5, v7, v8], dyn.sum, unres.sum, clipCount [c1, c4, c5, c6, c7, c8] chans⟩

/-- A working value in a stored sample format (R89). -/
def storeSample (fmt v : Nat) : Nat :=
  match fmt with
  | 0 => min (rdiv v 256) 255
  | 1 => min (rdiv v 16) 4095
  | _ => v

/-- Bytes per sample of a stored format (R75, R83). -/
def sampleBytes (fmt : Nat) : Nat := if fmt = 0 then 1 else 2

/-- A counter of a table raised. -/
def tabAdd (t : Tab Nat) (k n : Nat) : Tab Nat := tabPut (fun _ => 0) t k (tabGet (fun _ => 0) t k + n)

/-- The statistics of one line added to a stripe's (R108). -/
def addStats (a : StatAcc) (o : ChainOut) (point linePx h row : Nat) : StatAcc :=
  let chans := o.taps.getD point []
  let band := row * 8 / h
  chans.zipIdx.foldl (fun a ch =>
    ch.1.zipIdx.foldl (fun a p =>
      let z := 128 * ch.2 + 16 * band + p.2 * 16 / linePx
      { a with samples := a.samples + 1, hist := tabAdd a.hist (256 * ch.2 + p.1 / 256) 1
               zoneSum := tabAdd a.zoneSum z p.1, zoneCnt := tabAdd a.zoneCnt z 1 }) a)
    { a with dyn := a.dyn + o.dyn, unresolved := a.unresolved + o.unresolved, clip := a.clip + o.clip }

/-- A group's statistics with those of one more closed stripe. -/
def mergeStats (g a : StatAcc) : StatAcc :=
  let addT := fun (x y : Tab Nat) => y.foldl (fun t e => tabAdd t e.1 e.2) x
  { g with lastStamp := a.lastStamp, samples := g.samples + a.samples, dyn := g.dyn + a.dyn
           unresolved := g.unresolved + a.unresolved, clip := g.clip + a.clip, stripes := g.stripes + 1
           hist := addT g.hist a.hist, zoneSum := addT g.zoneSum a.zoneSum, zoneCnt := addT g.zoneCnt a.zoneCnt }

/-- The 8 KiB statistics record (R109). -/
def statRecord (a : StatAcc) (stream statPt c : Nat) : List Byte :=
  leBytes 4 a.firstSeq ++ leBytes 1 stream ++ zeros 1 ++ leBytes 1 statPt ++ leBytes 1 c ++ leBytes 8 a.firstStamp
    ++ leBytes 8 a.lastStamp ++ leBytes 4 a.samples ++ leBytes 4 a.dyn ++ leBytes 4 a.unresolved ++ leBytes 4 a.clip
    ++ leBytes 2 a.stripes ++ zeros 22
    ++ (List.range 1024).flatMap (fun i => leBytes 4 (tabGet (fun _ => 0) a.hist i))
    ++ (List.range 512).flatMap (fun i =>
      let n := tabGet (fun _ => 0) a.zoneCnt i
      leBytes 2 (if n = 0 then 0 else rdiv (tabGet (fun _ => 0) a.zoneSum i) n))
    ++ zeros 3008

end Sys2Proof.Machine
end

