-- ==== Sys2Proof/Machine/Ingest.lean ====
section
/-! DEFINITION. Stream ingest and the classical front-end as commands (R57 to R124): packets, lines, stripes, taps,
statistics and the table loader. -/

namespace Sys2Proof.Machine

/-- A stream at rest. -/
def StrmSt.idle : StrmSt :=
  { cfg := none, count := 0, lineNo := none, lastIdx := none, idxOff := 0, realign := false, firstIdx := none
    closedSet := [], lostSet := [], nextSeq := 0, opened := [], free := [], lastStage := none, prevRow := none
    posted := [], pendShort := 0, pendLong := 0, pendCrc := 0, pendShape := 0, framePkt := 0, frameLines := 0
    firstLine := false, group := none }

/-- No statistics yet. -/
def StatAcc.empty : StatAcc :=
  { firstSeq := 0, firstStamp := 0, lastStamp := 0, samples := 0, dyn := 0, unresolved := 0, clip := 0, stripes := 0
    hist := [], zoneSum := [], zoneCnt := [] }

/-- H, line_px, channels, stored format and buffer numbers of configuration words (R83). -/
def geomH (geom : Nat) : Nat := 16 * bits geom 20 16
def geomPx (geom : Nat) : Nat := bits geom 14 0
def storeChans (store : Nat) : Nat := match bits store 3 2 with | 0 => 1 | 1 => 3 | _ => 4
def storeFmt (store : Nat) : Nat := bits store 1 0
def bufCount (buf : Nat) : Nat := 2 + bits buf 29 28

/-- The line pitch P (R75). -/
def linePitch (px fmt : Nat) : Nat := cdiv (px * sampleBytes fmt) 256 * 256

/-- The bytes of a buffer (R75). -/
def bufBytes (h px c fmt : Nat) : Nat := 256 + 16 * h + c * h * linePitch px fmt

/-- The buffer size in 4 KiB units (R76). -/
def bufUnits (geom store : Nat) : Nat :=
  cdiv (bufBytes (geomH geom) (geomPx geom) (storeChans store) (storeFmt store)) 4096

/-- The byte address of buffer i of a stream (R75). -/
def bufAddr (geom store buf i : Nat) : Nat := (bits buf 13 0 + i * bufUnits geom store) * 4096

/-- Do two unit ranges meet? -/
def overlaps (a n b m : Nat) : Bool := decide (a < b + m) && decide (b < a + n)

namespace State

/-- A stream's state. -/
def strm (s : State) (k : Nat) : StrmSt := tabGet (fun _ => StrmSt.idle) s.fe.strm k

/-- The state with a stream's state replaced. -/
def setStrm (s : State) (k : Nat) (t : StrmSt) : State :=
  { s with fe := { s.fe with strm := tabPut (fun _ => StrmSt.idle) s.fe.strm k t } }

/-- FE_STRM_STAT.free_bufs brought up to date (R83). -/
def showFree (s : State) (k : Nat) : State := s.setF (feStrm k) FE_STRM_STAT_free_bufs (s.strm k).free.length

/-- The stage registers of a stream as they stand (R105). -/
def stageWords (s : State) (k : Nat) : List Nat :=
  ([0x80, 0x84, 0x88, 0x8C, 0x90, 0x94, 0x98, 0xA0, 0xA4, 0xA8, 0xAC, 0xB0, 0xB4, 0xB8, 0xBC, 0xC0, 0xC4, 0xD0]).map
    fun o => s.word (feStrm k + o)

/-- A byte of stripe memory as a number. -/
def stripeByte (s : State) (a : Nat) : Nat := (memByte s.stripe a).toNat

/-! ### Enable -/

/-- The unit ranges a running stream holds: its buffers, and the bank its FE_STRM_TBL selects (R62, R103). -/
def heldUnits (s : State) (k : Nat) : List (Nat × Nat) :=
  match (s.strm k).cfg with
  | none => []
  | some c =>
    let t := s.word (feStrm k + 0xD0)
    [(bits c.buf 13 0, bufCount c.buf * bufUnits c.geom c.store), (if bit t 28 then bits t 27 14 else bits t 13 0, 75)]

/-- The buffers of a running stream alone. -/
def heldBufs (s : State) (k : Nat) : List (Nat × Nat) := (s.heldUnits k).take 1

/-- The running streams but one. -/
def others (s : State) (k : Nat) : List Nat := (List.range 32).filter fun j => j != k && (s.strm j).cfg.isSome

/-- The reason of R62 and R103 for which an enable is refused, the lowest that applies; 0 for none. -/
def enableReason (s : State) (k : Nat) : Nat :=
  let p := feStrm k
  let geom := s.word (p + 0x44)
  let store := s.word (p + 0x50)
  let buf := s.word (p + 0x54)
  let tbl := s.word (p + 0xD0)
  let base := bits buf 13 0
  let units := bufCount buf * bufUnits geom store
  let bank := if bit tbl 28 then bits tbl 27 14 else bits tbl 13 0
  let os := s.others k
  let port := s.getF p FE_STRM_CTRL_port
  let vc := s.getF p FE_STRM_CTRL_vc
  let portOf := fun j => match (s.strm j).cfg with | some c => bits c.ctrl 2 0 | none => 8
  let vcOf := fun j => match (s.strm j).cfg with | some c => bits c.ctrl 7 4 | none => 16
  if 16384 < base + units ∨ 16384 < bank + 75 then 2
  else if os.any (fun j => (s.heldBufs j).any fun r => overlaps base units r.1 r.2)
      || os.any (fun j => (s.heldUnits j).any fun r => overlaps bank 75 r.1 r.2) || overlaps bank 75 base units then 3
  else if os.any (fun j => portOf j == port && vcOf j == vc) || 4 ≤ (os.filter fun j => portOf j == port).length then 4
  else if s.flag p FE_STRM_CTRL_frame_align && s.getF p FE_STRM_FRAME_frame_lines % geomH geom != 0 then 5
  else 0

/-- The stream starts (R61, R62, R64): accepted, or refused with cfg_err and cause 0x08. -/
def startStream (s : State) (a : Agent) (k : Nat) : State :=
  let p := feStrm k
  let r := s.enableReason k
  let s1 := s.setF p FE_STRM_STAT_cfg_err r
  if r ≠ 0 then s1.refuse a p 0xC
  else
    let cfg : StrmCfg := ⟨s.word (p + 0x40), s.word (p + 0x44), s.word (p + 0x48), s.word (p + 0x50), s.word (p + 0x54)⟩
    let s2 := (s1.setF p PG_CTRL_enable 1).setF p FE_STRM_BSIZE_size (bufUnits cfg.geom cfg.store)
    (s2.setStrm k { StrmSt.idle with cfg := some cfg, free := List.range (bufCount cfg.buf) }).showFree k

/-! ### Codes and header counts (R74) -/

/-- A stream code posted at most once per stripe: the most recently opened open stripe, or the next stripe to open (R74). -/
def postStrm (s : State) (k code : Nat) : State :=
  let t := s.strm k
  match t.opened with
  | o :: os =>
    if o.posted.contains code then s.countEvt (feStrm k) 0x03 1
    else (s.setStrm k { t with opened := { o with posted := code :: o.posted } :: os }).postRecord (feStrm k) code 0xFF
  | [] =>
    if t.posted.contains code then s.countEvt (feStrm k) 0x03 1
    else (s.setStrm k { t with posted := code :: t.posted }).postRecord (feStrm k) code 0xFF

/-- Which header count a code feeds (R77). -/
inductive HdrCount where
  | short | long | crc | shape
  deriving DecidableEq, Repr

/-- A header count raised on the most recently opened open stripe, or carried to the next one (R74). -/
def chargeCount (s : State) (k : Nat) (c : HdrCount) : State :=
  let t := s.strm k
  match t.opened with
  | o :: os =>
    let o' := match c with
      | .short => { o with nShort := o.nShort + 1 }
      | .long => { o with nLong := o.nLong + 1 }
      | .crc => { o with nCrc := o.nCrc + 1 }
      | .shape => { o with nShape := o.nShape + 1 }
    s.setStrm k { t with opened := o' :: os }
  | [] => s.setStrm k (match c with
      | .short => { t with pendShort := t.pendShort + 1 }
      | .long => { t with pendLong := t.pendLong + 1 }
      | .crc => { t with pendCrc := t.pendCrc + 1 }
      | .shape => { t with pendShape := t.pendShape + 1 })

/-! ### Rings for statistics and taps (R114 to R117) -/

/-- A record written to a stream's ring when it has a free slot, else counted as dropped; `events` are the bits raised
when written and when dropped (R115, R120). -/
def ringPut (s : State) (k : Nat) (lo hi wr rd drop : Fld) (toGddr : Bool) (slots slotBytes : Nat) (recd : List Byte)
    (events : Nat × Nat) : State :=
  let p := feStrm k
  let w := s.getF p wr
  if (w + 2 ^ 16 - s.getF p rd) % 2 ^ 16 < slots then
    let a := s.get64 p lo hi / 4096 * 4096 + w % slots * slotBytes
    (((if toGddr then s.gdWr a recd else s.pcieWr a recd)).setF p wr (w + 1)).raise p events.1
  else (s.satF p drop).raise p events.2

/-- The statistics record of a finished group (R109, R118). -/
def writeStats (s : State) (k : Nat) (g : StatAcc) (c statPt : Nat) : State :=
  let p := feStrm k
  s.ringPut k FE_STRM_SRING_LO_addr_lo FE_STRM_SRING_HI_addr_hi FE_STRM_SRING_IDX_wr FE_STRM_SRING_IDX_rd
    FE_STRM_SCNT_stat_drop (s.flag p FE_STRM_STATCFG_dest) (2 ^ s.getF p FE_STRM_STATCFG_depth_log2) 8192
    (statRecord g k statPt c) (6, 8)

/-- A stripe with a sequence number has ended, closed with its statistics or lost: the group takes it, and the group's
last stripe writes the record (R107, R109, R118). -/
def endGroup (s : State) (k seq : Nat) (acc : Option StatAcc) (c : Nat) : State :=
  let p := feStrm k
  let statPt := bits (((s.strm k).lastStage.getD []).getD 0 0) 9 8
  if !s.flag p FE_STRM_STATCFG_stat_en then s
  else
    let n := s.getF p FE_STRM_STATCFG_nstripes + 1
    let t := s.strm k
    let g := match t.group, acc with
      | some g, some a => some (mergeStats g a)
      | none, some a => some { a with stripes := 1 }
      | g, none => g
    if (seq + 1) % n = 0 then
      let s1 := s.setStrm k { t with group := none }
      match g with
      | some g => s1.writeStats k g c statPt
      | none => s1
    else s.setStrm k { t with group := g }

/-! ### Stripes -/

/-- The sample a padded place takes (R73): `prev` is the stored row above, where it has been written. -/
def padSample (padMode padValue : Nat) (last : Option Nat) (prev : Option (List Nat)) (i : Nat) : Nat :=
  match padMode with
  | 1 => last.getD padValue
  | 2 => match prev with | some r => r.getD i padValue | none => padValue
  | _ => padValue

/-- A stored row's samples, plane after plane, as bytes written into the stripe's buffer. -/
def writeRow (s : State) (base h px c fmt row : Nat) (vals : List Nat) : State :=
  let pitch := linePitch px fmt
  let b := sampleBytes fmt
  (List.range c).foldl (fun s pl =>
    s.stripeWr (base + 256 + 16 * h + pl * h * pitch + row * pitch)
      (((vals.drop (pl * px)).take px).flatMap (leBytes b))) s

/-- A stored row read back, plane after plane. -/
def readRow (s : State) (base h px c fmt row : Nat) : List Nat :=
  let pitch := linePitch px fmt
  let b := sampleBytes fmt
  (List.range c).flatMap fun pl => (List.range px).map fun x =>
    leNat (s.stripeRd (base + 256 + 16 * h + pl * h * pitch + row * pitch + x * b) b)

/-- The stored row above a row of an open stripe, where it has been written: of the same stripe, or for row 0 row
H − 1 of the stream's previous stripe, when that closed (R73). -/
def rowAbove (s : State) (t : StrmSt) (o : OpenStripe) (base h px c fmt row : Nat) : Option (List Nat) :=
  if row = 0 then
    match t.prevRow with
    | some (q, r) => if q + 1 = o.seq then some r else none
    | none => none
  else if o.rows.contains (row - 1) then some (s.readRow base h px c fmt (row - 1)) else none

/-- A line record (R78). -/
def lineRecord (stamp enc valid flags : Nat) : List Byte :=
  leBytes 8 stamp ++ leBytes 4 enc ++ leBytes 2 valid ++ leBytes 2 flags

/-- A missing row filled with padding and flagged (R71, R78). -/
def fillRow (s : State) (k : Nat) (o : OpenStripe) (c : StrmCfg) (base row : Nat) : State × OpenStripe :=
  let h := geomH c.geom
  let px := geomPx c.geom
  let ch := storeChans c.store
  let fmt := storeFmt c.store
  let above := s.rowAbove (s.strm k) o base h px ch fmt row
  let pv := s.getF (feStrm k) FE_STRM_PAD_value
  let vals := (List.range (ch * px)).map fun i => padSample (bits c.ctrl 15 14) pv none above i
  let stamp := (o.stamp0 + row * s.getF (feStrm k) FE_STRM_LPER_period_ns) % 2 ^ 64
  let s1 := (s.writeRow base h px ch fmt row vals).stripeWr (base + 256 + 16 * row) (lineRecord stamp 0 0 8)
  (s1, { o with rows := row :: o.rows, hasPad := true })

/-- The stripe header (R77). -/
def stripeHeader (k : Nat) (c : StrmCfg) (o : OpenStripe) (flags filled : Nat) : List Byte :=
  leBytes 4 o.seq ++ leBytes 1 k ++ leBytes 1 (bits c.geom 20 16) ++ leBytes 2 (geomPx c.geom) ++ leBytes 8 o.stamp0
    ++ leBytes 8 o.lastStamp ++ leBytes 4 o.enc0 ++ leBytes 2 (flags + b01 o.hasPad * 8) ++ leBytes 2 filled
    ++ leBytes 2 o.nShort ++ leBytes 2 o.nLong ++ leBytes 2 o.nCrc ++ leBytes 2 o.nShape ++ zeros 24 ++ zeros 192

/-- The tap record of a closed stripe: the layout of a stripe buffer with the tap's own samples; samples beyond
valid_px and missing rows are 0 (R110, R112, R113). -/
def tapRecord (c : StrmCfg) (o : OpenStripe) (fmt : Nat) (header : List Byte) (recs : List Byte) : List Byte :=
  let h := geomH c.geom
  let px := geomPx c.geom
  let ch := storeChans c.store
  let pitch := linePitch px fmt
  let b := sampleBytes fmt
  header ++ recs ++ (List.range ch).flatMap fun pl => (List.range h).flatMap fun row =>
    let vals := match o.tapRows.find? (fun r => r.1 == row) with
      | some r => r.2.drop (pl * px)
      | none => []
    (List.range px).flatMap (fun x => leBytes b (storeSample fmt (vals.getD x 0))) ++ zeros (pitch - px * b)

/-- A closed stripe's tap record written or dropped (R110, R115, R118). -/
def writeTap (s : State) (k : Nat) (c : StrmCfg) (o : OpenStripe) (base : Nat) : State :=
  let p := feStrm k
  match o.tap with
  | none => s
  | some tap =>
    if !s.flag p FE_STRM_TAP_tap_en then s
    else
      let fmt := bits tap 26 25
      let h := geomH c.geom
      let units := cdiv (bufBytes h (geomPx c.geom) (storeChans c.store) fmt) 4096
      let recd := tapRecord c o fmt (s.stripeRd base 256) (s.stripeRd (base + 256) (16 * h))
      s.ringPut k FE_STRM_TRING_LO_addr_lo FE_STRM_TRING_HI_addr_hi FE_STRM_TRING_IDX_wr FE_STRM_TRING_IDX_rd
        FE_STRM_SCNT_tap_drop (bit tap 30) (2 ^ bits tap 24 21) (units * 4096) recd (7, 9)

/-- The tap point whose samples the statistics take (R107). -/
def statPoint (pt : Nat) : Nat := match pt with | 0 => 1 | 1 => 3 | _ => 5

/-- A stripe buffer is free again (R79). -/
def freeBuffer (s : State) (k buf : Nat) : State :=
  let t := s.strm k
  if t.free.contains buf || t.opened.any (fun o => o.buf == some buf) then s
  else (s.setStrm k { t with free := t.free ++ [buf] }).showFree k

/-- The bound jobs that name a stream (R290, R616). -/
def jobsNaming (s : State) (k : Nat) : List Nat :=
  s.jobs.filterMap fun e => match e.2 with
    | some x => if !x.stopping && x.blk.pistes.any (fun p => p.stream == k) then some e.1 else none
    | none => none

/-- A stripe is handed to Slalom. -/
def hand (s : State) (i : StripeInfo) : State := { s with fe := { s.fe with handed := s.fe.handed ++ [i] } }

/-- The row that the front-end keeps for R73 once stripe `seq` has closed with last row `row`: that of the later stripe. -/
def lastRowKept (old : Option (Nat × List Nat)) (seq : Nat) (row : List Nat) : Option (Nat × List Nat) :=
  match old with
  | some (q, r) => if decide (0 < (q + 2 ^ 32 - seq) % 2 ^ 32) && decide ((q + 2 ^ 32 - seq) % 2 ^ 32 < 2 ^ 31) then some (q, r) else some (seq, row)
  | none => some (seq, row)

/-- An open stripe closes (R69, R71): its missing rows are padded in ascending order, its header is written, the
statistics and the tap record are taken and Slalom is handed the stripe. `flags` are header flags [2:0]. -/
def closeStripe (s : State) (k : Nat) (o : OpenStripe) (flags : Nat) : State :=
  let t := s.strm k
  match t.cfg, o.buf with
  | some c, some b =>
    let p := feStrm k
    let h := geomH c.geom
    let base := bufAddr c.geom c.store c.buf b
    let missing := (List.range h).filter fun r => !o.rows.contains r
    let (s1, o1) := missing.foldl (fun (x : State × OpenStripe) r => x.1.fillRow k x.2 c base r) (s, o)
    let s2 := s1.stripeWr base (stripeHeader k c o1 flags missing.length)
    let lastRow := s2.readRow base h (geomPx c.geom) (storeChans c.store) (storeFmt c.store) (h - 1)
    let info : StripeInfo :=
      { stream := k, seq := o.seq, lost := false, buf := b, geom := c.geom, store := c.store, bufWord := c.buf
        stamp := o.stamp0, enc0 := o.enc0, hasPad := o1.hasPad, closeNs := s.ns, waiting := s.jobsNaming k }
    let t1 := s2.strm k
    let s3 := s2.setStrm k { t1 with
      closedSet := o.idx :: t1.closedSet, opened := t1.opened.filter (fun x => x.idx != o.idx)
      prevRow := lastRowKept t1.prevRow o.seq lastRow }
    let s4 := ((s3.setF p FE_STRM_SEQ_seq o.seq).raise p 0)
    -- a stripe of a stream that no bound job names is released at once (R616)
    let s5 := if info.waiting.isEmpty then s4.freeBuffer k b else s4.hand info
    let s6 := s5.endGroup k o.seq (some { o1.stat with firstSeq := o.seq, firstStamp := o.stamp0, lastStamp := o.lastStamp })
      (storeChans c.store)
    s6.writeTap k c o1 base
  | _, _ => s

/-- A stripe is lost (R79, R641): it takes no more lines, consumes its number, and Slalom is told. -/
def loseStripe (s : State) (k idx seq stamp : Nat) (c : StrmCfg) : State :=
  let t := s.strm k
  let info : StripeInfo :=
    { stream := k, seq := seq, lost := true, buf := 0, geom := c.geom, store := c.store, bufWord := c.buf
      stamp := stamp, enc0 := 0, hasPad := false, closeNs := s.ns, waiting := s.jobsNaming k }
  let s1 := s.setStrm k { t with lostSet := idx :: t.lostSet, opened := t.opened.filter (fun x => x.idx != idx) }
  let s2 := if info.waiting.isEmpty then s1 else s1.hand info
  (s2.satF (feStrm k) FE_STRM_STAT_lost_cnt).endGroup k seq none (storeChans c.store)

/-- A stripe opens with its first line: the stage values are sampled or held (R105, R106) and a buffer is taken; with
no free buffer the stripe is lost and STRIPE_OVERRUN is posted (R79). -/
def openStripe (s : State) (k idx row stamp : Nat) (c : StrmCfg) : State :=
  let p := feStrm k
  let t := s.strm k
  let now := s.stageWords k
  let stage := match t.lastStage with
    | some old => if bit (now.getD 0 0) 31 then old else now
    | none => now
  let per := s.getF p FE_STRM_LPER_period_ns
  let stamp0 := (stamp + 2 ^ 64 - row * per % 2 ^ 64) % 2 ^ 64
  let seq := t.nextSeq
  let first := match t.firstIdx with | some f => f | none => idx
  let t1 := { t with nextSeq := (seq + 1) % 2 ^ 32, lastStage := some stage, firstIdx := some first }
  match t.free with
  | [] => (((s.setStrm k t1).loseStripe k idx seq stamp0 c).raise p 5).postStrm k 0x0408
  | b :: free =>
    let tapW := s.word (p + 0xF0)
    let tapped := bit tapW 31 && bit (s.word (feCommonPage + 0x50)) k && seq % (bits tapW 20 13 + 1) == 0
    let o : OpenStripe :=
      { idx := idx, seq := seq, buf := some b, rows := [], stamp0 := stamp0, lastStamp := stamp, enc0 := 0
        hasPad := false, nShort := t.pendShort, nLong := t.pendLong, nCrc := t.pendCrc, nShape := t.pendShape
        stage := stage, stat := StatAcc.empty, tap := if tapped then some tapW else none, tapRows := [], posted := t.posted }
    (s.setStrm k { t1 with free := free, opened := o :: t1.opened, posted := [], pendShort := 0, pendLong := 0
                           pendCrc := 0, pendShape := 0 }).showFree k

/-- A received long packet of a stream, after its checks: what is written into its row. -/
structure LineIn where
  samples : List Nat
  crcBad : Bool
  overflow : Bool
  stamp : Nat
  enc : Nat
  /-- It is the first line after a Frame Start (R78). -/
  first : Bool
  deriving DecidableEq, Repr

/-- A line goes into its row of an open stripe (R66, R67, R72, R73, R78): chain, store, padding, line record; the last
row closes the stripe. -/
def putLine (s : State) (k : Nat) (o : OpenStripe) (c : StrmCfg) (b row : Nat) (l : LineIn) : State :=
  let p := feStrm k
  let h := geomH c.geom
  let px := geomPx c.geom
  let ch := storeChans c.store
  let fmt := storeFmt c.store
  let base := bufAddr c.geom c.store c.buf b
  let got := l.samples.length / ch
  let valid := min got px
  let keep := if l.crcBad then 0 else valid
  let chans := (List.range ch).map fun i => (List.range keep).map fun x => toWorking (bits c.ctrl 13 8) (l.samples.getD (x * ch + i) 0)
  let out := chain s.stripeByte ⟨o.stage⟩ px chans
  let t := s.strm k
  let above := s.rowAbove t o base h px ch fmt row
  let pv := s.getF p FE_STRM_PAD_value
  let stored := (out.taps.getD 5 []).map fun vs => vs.map (storeSample fmt)
  let vals := (List.range ch).flatMap fun i =>
    let vs := stored.getD i []
    (List.range px).map fun x =>
      if x < keep then vs.getD x 0
      else padSample (bits c.ctrl 15 14) pv (if keep = 0 then none else vs[keep - 1]?) above (i * px + x)
  let short := decide (got < px) || l.overflow
  let long := decide (px < got)
  let flags := b01 short + b01 long * 2 + b01 l.crcBad * 4 + b01 l.overflow * 16 + b01 l.first * 32
  let recd := lineRecord l.stamp l.enc valid flags
  let statOn := s.flag p FE_STRM_STATCFG_stat_en && keep != 0
  let o1 := { o with
    rows := row :: o.rows.filter (· != row)
    stamp0 := if row = 0 then l.stamp else o.stamp0
    lastStamp := l.stamp
    enc0 := if row = 0 then l.enc else o.enc0
    hasPad := o.hasPad || decide (keep < px)
    stat := if statOn then addStats o.stat out (statPoint (bits (o.stage.getD 0 0) 9 8)) px h row else o.stat
    tapRows := match o.tap with
      | some tw => (row, (List.range ch).flatMap fun i =>
          let vs := (out.taps.getD (bits tw 29 27) []).getD i []
          (List.range px).map fun x => vs.getD x 0) :: o.tapRows.filter (fun r => r.1 != row)
      | none => o.tapRows }
  let s1 := (s.writeRow base h px ch fmt row vals).stripeWr (base + 256 + 16 * row) recd
  let s2 := s1.setStrm k { t with
    opened := t.opened.map (fun x => if x.idx = o.idx then o1 else x) }
  let s3 := if short then ((s2.chargeCount k .short).raise p 1).postStrm k 0x0401 else s2
  let s4 := if long then ((s3.chargeCount k .long).raise p 2).postStrm k 0x0402 else s3
  let s5 := if l.crcBad then s4.chargeCount k .crc else s4
  if row + 1 = h then
    match (s5.strm k).opened.find? (fun x => x.idx == o.idx) with
    | some x => s5.closeStripe k x 0
    | none => s5
  else s5

/-- The number after every stripe the stream has opened since enable. -/
def nextStripe (t : StrmSt) : Nat :=
  (t.closedSet ++ t.lostSet ++ t.opened.map (·.idx)).foldl (fun m i => max m (i + 1)) 0

/-- A matched long packet takes its line index and goes to its stripe, or is late, or falls to a lost stripe (R63, R68,
R72, R79). -/
def acceptLine (s : State) (k : Nat) (c : StrmCfg) (l : LineIn) : State :=
  let t := s.strm k
  let h := geomH c.geom
  let numbered := bits c.ctrl 21 20 == 1
  let raw := if numbered then
      match t.lineNo with
      | some n => n
      | none => match t.lastIdx with | some i => i + 1 | none => 0
    else t.count
  let eff : Int := if t.realign then ((nextStripe t * h : Nat) : Int) else raw + t.idxOff
  let t1 := { t with lineNo := none, count := if numbered then t.count else eff.toNat + 1
                     idxOff := if t.realign && numbered then eff - raw else t.idxOff, realign := false
                     frameLines := t.frameLines + 1, firstLine := false }
  let s0 := s.setStrm k t1
  let idx := (eff / (h : Int)).toNat
  let row := (eff % (h : Int)).toNat
  let early := decide (eff < 0) || (match t.firstIdx with | some f => decide (idx < f) | none => false)
  if early || t.closedSet.contains idx then
    ((s0.satF (feStrm k) FE_STRM_STAT_late_cnt).raise (feStrm k) 3).postStrm k 0x0403
  else if t.lostSet.contains idx then s0
  else
    let s2 := if t.opened.any (fun x => x.idx == idx) then s0 else s0.openStripe k idx row l.stamp c
    match (s2.strm k).opened.find? (fun x => x.idx == idx) with
    | some o =>
      match o.buf with
      | some b => (s2.setStrm k { s2.strm k with lastIdx := some raw }).putLine k o c b row l
      | none => s2
    | none => s2

/-- The running streams bound to a port and an identifier. -/
def streamsOn (s : State) (port vc : Nat) : List Nat :=
  (List.range 32).filter fun k =>
    match (s.strm k).cfg with
    | some c => bits c.ctrl 2 0 == port && bits c.ctrl 7 4 == vc
    | none => false

/-- The port receives: its page's enable and rx_en are 1 (R82, R640), its clock runs, and the device has not halted. -/
def portOn (s : State) (p : Nat) : Bool :=
  s.enabled (fePort p) && s.flag (fePort p) FE_PORT_CTRL_rx_en && !s.clkOff (fePort p) && !s.halted

/-- The physical lanes in use: those that lanes and lane_map assign to a logical lane (R72, R82). -/
def lanesInUse (s : State) (p : Nat) : List Nat :=
  let n := match s.getF (fePort p) FE_PORT_CTRL_lanes with | 0 => 1 | 1 => 2 | _ => 4
  (List.range n).map fun i => s.getF (fePort p) FE_PORT_CTRL_lane_map / 4 ^ i % 4

/-- A start of transmission synchronises the lanes in use (R72, R82). -/
def lanesSync (s : State) (p : Nat) : State :=
  let w := (s.lanesInUse p).foldl setBit (s.getF (fePort p) FE_PORT_STAT_lane_sync)
  s.setF (fePort p) FE_PORT_STAT_lane_sync w

/-- A port code: at most once per 1 µs of timebase each (R74). -/
def postPort (s : State) (p code : Nat) : State :=
  let key := markKey (fePort p) code 0
  if s.rateOpen key 1000 then (s.rateMark key).postRecord (fePort p) code 0xFF else s.countEvt (fePort p) 0x03 1

/-- An uncorrectable packet header: the packet is dropped and CSI_HDR_ECC posted (R72). -/
def badHeader (s : State) (p : Nat) : State :=
  ((s.satF (fePort p) FE_PORT_ERR_hdr_cnt).raise (fePort p) 1).postPort p 0x0405

/-- The position field of a line stamp (R67). -/
def encField (s : State) (c : StrmCfg) : Nat :=
  if bit c.ctrl 18 then s.getF tbPage TB_ENCn_POS_pos (bits c.ctrl 17 16) else 0

/-- A long packet (R58, R60, R63, R66, R72). -/
def longPacket (s : State) (p vc dt : Nat) (payload : List Byte) (hdrBad crcBad : Bool) (fullAt : Option Nat) : State :=
  if !s.portOn p then s
  else
    let s1 := ((s.lanesSync p).countBw p payload.length).countEvt (fePort p) 0x10 payload.length
    if hdrBad then s1.badHeader p
    else
      match (s1.streamsOn p vc).find? (fun k => match (s1.strm k).cfg with | some c => bits c.ctrl 13 8 == dt | none => false) with
      | none => s1.satF (fePort p) FE_PORT_STAT_unmatched_cnt
      | some k =>
        match (s1.strm k).cfg with
        | none => s1
        | some c =>
          let overflow := match fullAt with | some n => decide (n < payload.length) | none => false
          let bytes := match fullAt with | some n => payload.take n | none => payload
          let s2 := if overflow then (s1.satF (fePort p) FE_PORT_STAT_ovf_cnt).raise (fePort p) 3 else s1
          let bad := crcBad && !overflow
          let s3 := if bad then ((s2.satF (fePort p) FE_PORT_ERR_crc_cnt).raise (fePort p) 2).postPort p 0x0406 else s2
          let stamp := ofSigned 64 ((s3.ns : Int) + toSigned 16 (s3.getF (feStrm k) FE_STRM_TOFF_toff_ns))
          s3.acceptLine k c ⟨unpack dt bytes, bad, overflow, stamp, s3.encField c, (s3.strm k).firstLine⟩

/-- A Line Start: its number is the next line's index for the streams of its virtual channel (R68). -/
def lineStart (s : State) (p vc num : Nat) (hdrBad : Bool) : State :=
  if !s.portOn p then s
  else
    let s1 := s.lanesSync p
    if hdrBad then s1.badHeader p
    else (s1.streamsOn p vc).foldl (fun s k => s.setStrm k { s.strm k with lineNo := some num }) s1

/-- A Line End: only its header is checked (R58, R72). -/
def lineEnd (s : State) (p : Nat) (hdrBad : Bool) : State :=
  if !s.portOn p then s else if hdrBad then (s.lanesSync p).badHeader p else s.lanesSync p

/-- A frame start or end out of place (R72). -/
def frameShape (s : State) (k : Nat) : State := ((s.chargeCount k .shape).raise (feStrm k) 4).postStrm k 0x0404

/-- Every open stripe of a stream closed, oldest first, with header flags. -/
def closeAll (s : State) (k flags : Nat) : State :=
  (s.strm k).opened.reverse.foldl (fun s o =>
    match (s.strm k).opened.find? (fun x => x.idx == o.idx) with
    | some x => s.closeStripe k x flags
    | none => s) s

/-- A Frame Start (R72): checked; with frame_align it closes the open stripe and the next line begins a new one. -/
def frameStart (s : State) (p vc : Nat) (hdrBad : Bool) : State :=
  if !s.portOn p then s
  else
    let s1 := s.lanesSync p
    if hdrBad then s1.badHeader p
    else (s1.streamsOn p vc).foldl (fun s k =>
      match (s.strm k).cfg with
      | none => s
      | some c =>
        let s2 := if (s.strm k).framePkt = 1 then s.frameShape k else s
        let align := bit c.ctrl 19
        let s3 := if align then s2.closeAll k 4 else s2
        let t := s3.strm k
        s3.setStrm k { t with framePkt := 1, frameLines := 0, firstLine := true, realign := align || t.realign }) s1

/-- A Frame End (R72). -/
def frameEnd (s : State) (p vc : Nat) (hdrBad : Bool) : State :=
  if !s.portOn p then s
  else
    let s1 := s.lanesSync p
    if hdrBad then s1.badHeader p
    else (s1.streamsOn p vc).foldl (fun s k =>
      match (s.strm k).cfg with
      | none => s
      | some c =>
        let t := s.strm k
        let n := bits c.frame 15 0
        let bad := t.framePkt == 2 || (n != 0 && t.framePkt == 1 && t.frameLines != n)
        let s2 := if bad then s.frameShape k else s
        s2.setStrm k { s2.strm k with framePkt := 2 }) s1

/-- A lane loses synchronisation (R72): nothing while rx_en is 0 or for a lane not in use. -/
def dphySync (s : State) (p lane : Nat) : State :=
  if !s.portOn p || !(s.lanesInUse p).contains lane then s
  else
    let w := clrBit (s.getF (fePort p) FE_PORT_STAT_lane_sync) lane
    (((s.setF (fePort p) FE_PORT_STAT_lane_sync w)).raise (fePort p) 0).postPort p 0x0407

/-- The close deadline of an open stripe (R69); none while period_ns is 0. -/
def deadline (s : State) (k : Nat) (c : StrmCfg) (o : OpenStripe) : Option Nat :=
  let per := s.getF (feStrm k) FE_STRM_LPER_period_ns
  if per = 0 then none
  else some (o.stamp0 + (geomH c.geom - 1 + s.getF (feStrm k) FE_STRM_LPER_slack_lines) * per)

/-- The close deadline of the oldest open stripe whose deadline has passed (R69 to R71). -/
def closeDeadline (s : State) (k : Nat) : State :=
  match (s.strm k).cfg with
  | none => s
  | some c =>
    match (s.strm k).opened.reverse.find? (fun o => match s.deadline k c o with | some d => decide (d ≤ s.ns) | none => false) with
    | none => s
    | some o =>
      let s1 := s.closeStripe k o 1
      let t := s1.strm k
      if bits c.ctrl 21 20 = 1 then s1 else s1.setStrm k { t with count := max t.count ((o.idx + 1) * geomH c.geom) }

/-- The stream stops (R65, R642): open stripes close truncated and go to Slalom; no more packets are accepted. -/
def stopStream (s : State) (k : Nat) : State :=
  if (s.strm k).cfg.isSome then
    let s1 := s.closeAll k 2
    s1.setStrm k { s1.strm k with cfg := none, lineNo := none, realign := false, firstLine := false }
  else s

/-- A stream may no longer tap (R111): tap_en clears and a tap record in progress is abandoned. -/
def tapPermitClear (s : State) (k : Nat) : State :=
  let s1 := (s.setWord (feCommonPage + 0x50) (clrBit (s.word (feCommonPage + 0x50)) k)).setF (feStrm k) FE_STRM_TAP_tap_en 0
  let t := s1.strm k
  s1.setStrm k { t with opened := t.opened.map fun o => { o with tap := none, tapRows := [] } }

/-! ### Stream registers -/

/-- A write to FE_STRM_CTRL, GEOM, FRAME, STORE or BUF: refused while the stream is enabled (R64); a new geometry shows
in FE_STRM_BSIZE (R76). -/
def strmCfgWrite (a : Agent) (k off v : Nat) (s : State) : State :=
  let p := feStrm k
  if (s.strm k).cfg.isSome then (s.setF p FE_STRM_STAT_cfg_err 1).refuse a p off
  else
    let s1 := plainWrite a p off v s
    if off = 0x44 ∨ off = 0x50 then
      s1.setF p FE_STRM_BSIZE_size (bufUnits (s1.word (p + 0x44)) (s1.word (p + 0x50)))
    else s1

/-- A write to FE_STRM_TAP: tap_en stays 0 without the permit (R110). -/
def strmTapWrite (a : Agent) (k v : Nat) (s : State) : State :=
  let p := feStrm k
  let s1 := plainWrite a p 0xF0 v s
  if bit (s.word (feCommonPage + 0x50)) k then s1 else s1.setF p FE_STRM_TAP_tap_en 0

/-! ### The table loader -/

/-- A write to FE_TLD_CTRL (R104, R640): its fields, and with go the start of a copy. -/
def tableLoadWrite (a : Agent) (v : Nat) (s : State) : State :=
  let p := feCommonPage
  if !bit v 31 then plainWrite a p 0x48 v s
  else if s.flag p FE_TLD_STAT_busy then s
  else if !s.enabled p then s.refuse a p 0x48
  else
    let s1 := plainWrite a p 0x48 v s
    let len := s1.getF p FE_TLD_CTRL_len
    let dst := s1.getF p FE_TLD_CTRL_dst
    if 16384 < dst + len then ((s1.refuse a p 0x48).setF p FE_TLD_STAT_err 1).raise p 1
    else
      let s2 := (s1.setF p FE_TLD_STAT_err 0).setF p FE_TLD_STAT_busy 1
      let src := s2.get64 p FE_TLD_SRC_LO_addr_lo FE_TLD_SRC_HI_addr_hi / 4096 * 4096
      { s2 with fe := { s2.fe with tld := some ⟨src, s2.flag p FE_TLD_CTRL_src, len, dst⟩ } }

/-- The copy ends (R104): all units, or up to a bus error in unit `badUnit`, or at the end of the local space. -/
def tableLoadComplete (s : State) (badUnit : Option Nat) : State :=
  match s.fe.tld with
  | none => s
  | some t =>
    let inSpace := if t.fromGddr then (s.gddrEnd - t.src) / 4096 else t.units
    let n := min t.units (min inSpace (match badUnit with | some u => u | none => t.units))
    let bytes := if t.fromGddr then s.gddrRd t.src (n * 4096) else s.hostRd t.src (n * 4096)
    let s1 := if t.fromGddr then s.gdCount t.src (n * 4096) false else s.pcieRdCount (n * 4096)
    let s2 := (s1.stripeWr (t.dst * 4096) bytes).setF feCommonPage FE_TLD_STAT_busy 0
    let s3 := { s2 with fe := { s2.fe with tld := none } }
    if n < t.units then (s3.setF feCommonPage FE_TLD_STAT_err 1).raise feCommonPage 1 else s3.raise feCommonPage 0

end State

/-! ### The commands -/

/-- LONG_PACKET (R63). -/
def execLongPacket (p : Fin 8) (vc : Fin 16) (dt : BitVec 6) (payload : List Byte) (hdrBad crcBad : Bool)
    (fullAt : Option Nat) (s : State) : Host.Outcome State Fault Refusal :=
  (s.longPacket p vc dt.toNat payload hdrBad crcBad fullAt).done

/-- LINE_START (R68). -/
def execLineStart (p : Fin 8) (vc : Fin 16) (num : BitVec 16) (hdrBad : Bool) (s : State) :
    Host.Outcome State Fault Refusal := (s.lineStart p vc num.toNat hdrBad).done

/-- LINE_END (R58). -/
def execLineEnd (p : Fin 8) (hdrBad : Bool) (s : State) : Host.Outcome State Fault Refusal := (s.lineEnd p hdrBad).done

/-- FRAME_START (R72). -/
def execFrameStart (p : Fin 8) (vc : Fin 16) (hdrBad : Bool) (s : State) : Host.Outcome State Fault Refusal :=
  (s.frameStart p vc hdrBad).done

/-- FRAME_END (R72). -/
def execFrameEnd (p : Fin 8) (vc : Fin 16) (hdrBad : Bool) (s : State) : Host.Outcome State Fault Refusal :=
  (s.frameEnd p vc hdrBad).done

/-- DPHY_SYNC (R72). -/
def execDphySync (p : Fin 8) (lane : Fin 4) (s : State) : Host.Outcome State Fault Refusal := (s.dphySync p lane).done

/-- CLOSE_DEADLINE (R69). -/
def execCloseDeadline (k : Fin 32) (s : State) : Host.Outcome State Fault Refusal := s.eng (s.closeDeadline k)

/-- TABLE_LOAD (R104): a write of FE_TLD_CTRL with go = 1. -/
def execTableLoad (a : Agent) (v : Word) (s : State) : Host.Outcome State Fault Refusal :=
  (s.guardedWrite a feCommonPage 0x48 (setBit v.toNat 31) (State.tableLoadWrite a)).done

/-- TABLE_LOAD_COMPLETE (R104). -/
def execTableLoadComplete (badUnit : Option Nat) (s : State) : Host.Outcome State Fault Refusal :=
  s.eng (s.tableLoadComplete badUnit)

end Sys2Proof.Machine
end

