-- ==== Sys2Proof/Machine/Units.lean ====
section
/-! DEFINITION. The units of a domain as the other files reach them: cores, rinks, jobs, Chairlifts, multicast groups, the
rink semaphores' counts (R257 to R259), the derived status of a core, and codes posted by a core (R200). -/

namespace Sys2Proof.Machine

/-- A core at rest. -/
def CoreSt.idle : CoreSt :=
  { imem := [], loop0 := 0, loop1 := 0, ends := 0, crc := 0xFFFFFFFF, active := .empty, cur := none, drain := none
    wbuf := [], abuf := [], rowbuf := [], acc := [], rowMiss := [], posted := [] }

/-- A rink at rest. -/
def RinkSt.idle : RinkSt :=
  { job := none, logical := 0, recs := [], left := 0, set := none, before := 0, total := 0, resident := none, copies := 0
    taken := 0, halo := [], carry := [], inbound := [], rx := [], credits := [], scrub := false }

/-- A multicast group that no job defines. -/
def GondolaGroup.none : GondolaGroup := { job := 4, key := 0, logical := 0, mapped := 0, runs := 0, run := .none }

namespace State

/-- The core with flat number k. -/
def core (s : State) (k : Nat) : CoreSt := tabGet (fun _ => CoreSt.idle) s.cores k
/-- A core replaced. -/
def setCore (s : State) (k : Nat) (c : CoreSt) : State := { s with cores := tabPut (fun _ => CoreSt.idle) s.cores k c }
/-- Rink n. -/
def rink (s : State) (n : Nat) : RinkSt := tabGet (fun _ => RinkSt.idle) s.rinks n
/-- A rink replaced. -/
def setRink (s : State) (n : Nat) (r : RinkSt) : State := { s with rinks := tabPut (fun _ => RinkSt.idle) s.rinks n r }
/-- The job of a slot. -/
def job (s : State) (j : Nat) : Option JobSt := tabGet (fun _ => none) s.jobs j
/-- A job slot replaced. -/
def setJob (s : State) (j : Nat) (x : Option JobSt) : State := { s with jobs := tabPut (fun _ => none) s.jobs j x }
/-- The outstanding transfers of Chairlift i, oldest first. -/
def lift (s : State) (i : Nat) : List Transfer := tabGet (fun _ => []) s.move.lifts i
/-- A Chairlift's outstanding transfers replaced (CL_STAT, R355). -/
def setLift (s : State) (i : Nat) (ts : List Transfer) : State :=
  { s with move := { s.move with lifts := tabPut (fun _ => []) s.move.lifts i ts } }.setF (clOf i) CL_STAT_outstanding ts.length
/-- Multicast group g. -/
def gond (s : State) (g : Nat) : GondolaGroup := tabGet (fun _ => GondolaGroup.none) s.move.gondola g
/-- A multicast group replaced; GD_ACTIVE follows (R356). -/
def setGond (s : State) (g : Nat) (x : GondolaGroup) : State :=
  let s1 := { s with move := { s.move with gondola := tabPut (fun _ => GondolaGroup.none) s.move.gondola g x } }
  let w := s1.getF gdPage GD_ACTIVE_group
  s1.setF gdPage GD_ACTIVE_group (if x.run.isSome then setBit w g else clrBit w g)

/-- The physical rinks of a job. -/
def rinksOf (s : State) (j : Nat) : List Nat := (List.range 16).filter fun n => (s.rink n).job == some j

/-- A reader of a rink's scratchpad. -/
def spadReader (s : State) (n : Nat) : Reader := fun a m => s.spadRd n a m

/-- RK_STATE.state of rink n (R264). -/
def rkState (s : State) (n : Nat) : Nat := s.getF (rk n) RK_STATE_state

/-- The rink program of rink n, and the group loaded (R260, R261). -/
def prog (s : State) (n : Nat) : RinkProg := parseProg (s.spadReader n) (s.getF (rk n) RK_PROG_base * 64)
def groupNo (s : State) (n : Nat) : Nat := s.getF (rk n) RK_STATE_group
def group (s : State) (n : Nat) : Group := parseGroup (s.spadReader n) (s.prog n).groups (s.groupNo n)

/-- The cells of the round in progress (R263): all of the set's, or round_cells of them when the program has more groups than
one. -/
def roundCells (s : State) (n : Nat) : Nat :=
  let r := s.rink n
  let p := s.prog n
  if p.nGroups ≤ 1 ∨ p.roundCells = 0 then r.total - r.before else min p.roundCells (r.total - r.before)

/-- Cell records in the rink's queue (R268). -/
def queued (s : State) (n : Nat) : Nat := (s.rink n).recs.length - (s.rink n).left

/-- A record of the round changed. -/
def mapRec (s : State) (n i : Nat) (f : CellRec → CellRec) : State :=
  let r := s.rink n
  match r.recs[i]? with
  | some c => s.setRink n { r with recs := setAt r.recs i (f c) }
  | none => s

/-- A cell of the round is flagged (R267). -/
def flagRec (s : State) (n i : Nat) : State := s.mapRec n i fun c => { c with flagged := true }

/-- The operator of a core that entered first: the one draining, else the current one. -/
def ops (s : State) (k : Nat) : List OpSt := (s.core k).drain.toList ++ (s.core k).cur.toList

/-! ### Semaphores (R257 to R259) -/

/-- Count and limit of semaphore x of rink n. -/
def semCount (s : State) (n x : Nat) : Nat := s.getF (rk n) RK_SEMn_count x
def semLimit (s : State) (n x : Nat) : Nat := s.getF (rk n) RK_SEMn_limit x
def setSem (s : State) (n x v : Nat) : State := s.setF (rk n) RK_SEMn_count v x

/-! ### Codes of a core -/

/-- The latest code of a core and the operator that posted it (R200). -/
def markFault (s : State) (k code desc : Nat) : State :=
  (s.setF (cr k) CR_FAULT_code code).setF (cr k) CR_FAULT_OP_desc desc

/-- The event bit of a core's code (R198), beside RESIDUE's. -/
def coreEvent (code : Nat) : Nat :=
  match code with
  | 0x0203 => 3 | 0x0201 => 4 | 0x0202 => 5 | 0x0207 => 6 | 0x0108 => 7 | 0x0701 => 2 | _ => 7

/-- An Item or Status code of an operator, posted by its core page at most once per stripe for each operator; a suppressed one
still counts (R143, R160, R165, R228, R238, R599). -/
def postOp (s : State) (k code desc : Nat) : State :=
  let c := s.core k
  if c.posted.contains (desc, code) then s.countEvt (cr k) 0x03 1
  else
    let s1 := s.setCore k { c with posted := (desc, code) :: c.posted }
    ((s1.markFault k code desc).raise (cr k) (coreEvent code)).postRecord (cr k) code 0xFF

/-- Saturated elements counted, with SATURATE (R143). -/
def saturated (s : State) (k desc n : Nat) : State :=
  if n = 0 then s
  else (((s.satF (cr k) CR_CNT_SAT_count n).countEvt (cr k) 0x19 n).postOp k 0x0203 desc)

end State

end Sys2Proof.Machine
end

