-- ==== Sys2Proof/Machine/Actions.lean ====
section
/-! DEFINITION. What a posted code does beyond its record (R25): a Device-scope code halts the device (R610), a Domain-scope
code fences the domain it names (R413 to R415, R638), a Job-scope code stops the job (R264, R461). `post` is the one operation
that posts a code. -/

namespace Sys2Proof.Machine

namespace State

/-! ### Device scope -/

/-- A change of boot stage (R607): DV_ event bit 0 and DV_BOOT_MS follow. -/
def enterStage (s : State) (st : Nat) : State :=
  if s.stage = st then s
  else (((s.setF dvPage DV_BOOT_stage st).setF dvPage DV_BOOT_MS_ms (s.elapsedNs / 1000000)).raise dvPage 0)

/-- The ring pages, the MSI-X table and PX_BAR2 return to reset (R519, R609); a lock is not re-armed (R41). -/
def endpointReset (s : State) : State :=
  let gone := fun (key : Nat) => decide (pxFaultPage ≤ key ∧ key < pxFaultPage + 0x1000) || decide (bar4 ≤ key)
  let held := s.link.held.map fun h => { h with dropped := true }
  let link := { s.link with pba := 0, heldReset := false, held := held }
  let s1 := { s with regs := s.regs.filter (fun e => !gone e.1), vrings := [], link := link }
  s1.setF pxCommonPage PX_BAR2_win 0

/-- A Device-scope code (R56, R610): the first since device reset is recorded, and stages FIRMWARE and READY become HALTED. -/
def deviceHalt (s : State) (page code : Nat) : State :=
  let s1 :=
    if s.getF dvPage DV_HALT_code = 0 then
      (((s.setF dvPage DV_HALT_code code).setF dvPage DV_HALT_ID_pg_id (pgId page)).set64 dvPage DV_HALT_TLO_t_lo
        DV_HALT_THI_t_hi s.ns).raise dvPage 1
    else s
  let s2 :=
    if s1.stage = 3 ∨ s1.stage = 4 then
      let s2 := (s1.setF dvPage DV_BOOT_code code).enterStage 5
      if s2.link.heldReset then s2.endpointReset else s2
    else s1
  if code = 0x0806 then { s2 with power := { s2.power with trip := true } } else s2

/-! ### Cancelled work (R325, R326) -/

/-- Tiles and bytes discarded by a Chairlift, with FETCH_DISCARD once for the cancellation; nothing where nothing is
discarded. -/
def discard (s : State) (i tiles bytes : Nat) : State :=
  if tiles = 0 then s
  else
    let p := clOf i
    (((((s.satF p CL_DISC_T_tiles tiles).satF p CL_DISC_B_bytes bytes).countEvt p 0x14 tiles).raise p 0)).postRecord p 0x0304 0xFF

/-- A receiver leaves every run of the Gondola without LATE (R336, R414); a run that no receiver is attached to ends. -/
def leaveRuns (s : State) (recv : Nat) : State :=
  (List.range 16).foldl (fun s g =>
    let x := s.gond g
    match x.run with
    | none => s
    | some r =>
      if r.attached.any (fun p => p.1 == recv) then
        let att := r.attached.filter fun p => p.1 != recv
        if att.all (fun p => decide (r.tiles.length ≤ p.2)) then (s.setGond g { x with run := none, runs := x.runs + 1 }).wrapF gdPage GD_STAT_runs
        else s.setGond g { x with run := some { r with attached := att } }
      else s) s

/-- The slots of an operator at T1 and at T2 that are filled or being filled: tiles, and the bytes of a slot of each. -/
def heldTiles (o : OpSt) (level : Nat) : Nat × Nat :=
  let a := if level = 1 then o.act1 else o.act2
  let w := if level = 1 then o.wt1 else o.wt2
  let sz := if level = 1 then o.o.t1 else o.o.t2 (schedOf o.o.l o.ext)
  (a.held.length + w.held.length, a.held.length * o.o.aSlot sz + w.held.length * o.o.wSlot sz)

/-- The transfers of a Chairlift for a core are cancelled: what they read goes nowhere (R326). -/
def killTransfers (s : State) (i k : Nat) : State :=
  s.setLift i ((s.lift i).map fun t => if t.core = k then { t with dead := true } else t)

/-- The fetched work of an operator of core k is cancelled: both Chairlifts discard its slots (R325, R326). -/
def cancelOp (s : State) (k : Nat) (o : OpSt) : State :=
  let t1 := heldTiles o 1
  let t2 := heldTiles o 2
  let s1 := (s.killTransfers (16 + k) k).killTransfers (k / 8) k
  (((s1.discard (16 + k) t1.1 t1.2).discard (k / 8) t2.1 t2.2)).leaveRuns (16 + k)

/-! ### Job scope -/

/-- Every unit of a rink stops (R264): its cores' run bits clear and the operators, transfers and halo columns in flight are
discarded (R325). -/
def haltRink (s : State) (n : Nat) : State :=
  let s1 := (List.range 8).foldl (fun s c =>
    let k := 8 * n + c
    let x := s.core k
    let s1 := (s.ops k).foldl (fun s o => s.cancelOp k o) s
    let s2 := ((s1.setF (cr k) CR_SEQ_CTRL_run 0).setF (cr k) CR_OP_CUR_valid 0).setF (cr k) CR_OP_DRAIN_valid 0
    (s2.setCore k { x with cur := none, drain := none }).setLift (16 + k) []) s
  let r := s1.rink n
  let s2 := (s1.setRink n { r with inbound := [], rx := [], credits := [], halo := [], carry := [], scrub := true }).setLift n []
  s2.setF (rk n) RK_STATE_state 5

/-- A job stops (R25, R264, R380, R461): its rinks enter STOP and wait for the scrub, its sets end without further verdicts
and its adaptation is OFF (log 24). Verdicts already queued at the emitter are dropped with their sets. -/
def stopJob (s : State) (j : Nat) : State :=
  match s.job j with
  | none => s
  | some x =>
    if x.stopping then s
    else
      let rinks := s.rinksOf j
      let s1 := rinks.foldl haltRink s
      let s2 := s1.setJob j (some { x with
        stopping := true, sets := [], reports := [], emits := [], switch := none
        adapt := x.adapt.map fun a => { a with run := none, pausing := false, wantSwap := false, next := none } })
      let s3 := ((s2.setF (feSlm j) FE_SLM_STAT_switching 0).setF (feSlm j) FE_SLM_ADAPT_state 0).setF (feSlm j) FE_SLM_ADAPT_pend 3
      let s4 := (s3.setF scPage SC_SCRUB_rinks (rinks.foldl setBit (s3.getF scPage SC_SCRUB_rinks))).setF scPage SC_SCRUB_stripe 1
      s4

/-- The job that a page's code stops: the job of its rink, or of its Slalom slot. -/
def pageJob (s : State) (page : Nat) : Option Nat :=
  match pageInfo page with
  | some (.rk, n) | some (.clRink, n) => (s.rink n).job
  | some (.cr, k) | some (.clCore, k) => (s.rink (k / 8)).job
  | some (.feSlm, j) => some j
  | _ => none

/-! ### Domain scope -/

/-- The fenced domain's receivers, transfers, halo columns and memories are gone (R414): its rinks hold no job, and its SRAMs
power up zeroed by the hot reset (R416), so their lost contents are never read. -/
def dropDomain (s : State) (d : Nat) : State :=
  let s1 := (List.range 4).foldl (fun s i =>
    let n := 4 * d + i
    let s1 := (List.range 8).foldl (fun s c =>
      let k := 8 * n + c
      (((s.leaveRuns (16 + k)).setCore k .idle).setLift (16 + k) [])) s
    ((s1.setRink n .idle).setLift n [])) s
  let inside := fun a => 4 * d ≤ a / 2 ^ 23 ∧ a / 2 ^ 23 < 4 * d + 4
  let s2 := { s1 with spad := s1.spad.filter fun e => !decide (inside e.1) }
  -- columns that the domain's rinks had on the way are lost with its ports
  (List.range 16).foldl (fun s n =>
    let r := s.rink n
    s.setRink n { r with inbound := r.inbound.filter fun m => !(m.node == s.getF tzCommonPage TZ_CFG_node && m.src / 4 == d) }) s2

/-- The windows into the domain's scratchpads close and their writes in flight are lost (R348, R414). -/
def closeWindows (s : State) (d : Nat) : State :=
  (List.range 256).foldl (fun s w =>
    let p := wnTab (w / 64)
    let i := w % 64
    if s.getF p WN_CTRL_target i = 0 ∧ s.getF p WN_CTRL_rink i / 4 = d then
      let s1 := { s with move := { s.move with winq := s.move.winq.filter fun x => x.win != w } }
      if s.getF p WN_CTRL_state i = 1 then (s1.setF p WN_CTRL_state 3 i).raise wnPage 1 else s1
    else s) s

/-- The first set none of whose cells has been released and which is not over (R299). -/
def boundary (x : JobSt) : Nat :=
  let last := x.sets.foldl (fun m t => if t.begun || t.complete then max m (t.num + 1) else m) 0
  match x.sets.find? (fun t => decide (last ≤ t.num)) with
  | some t => t.num
  | none => max last x.nextSet

/-- The number of the available plan of k domains (R289). -/
def planFor (s : State) (j : Nat) (x : JobSt) (k : Nat) : Option Nat :=
  (List.range x.blk.plans.length).find? fun p =>
    bit (s.getF (feSlm j) FE_SLM_STAT_avail) p && (match x.blk.plans[p]? with | some q => q.k == k | none => false)

/-- The adaptation pair waits for the switch (R380, R382): a step in progress is abandoned. -/
def adaptMoving (s : State) (j : Nat) : State :=
  let st := s.getF (feSlm j) FE_SLM_ADAPT_state
  match s.job j with
  | some x =>
    match x.adapt with
    | some a =>
      if st = 1 ∨ st = 2 then
        ((s.abandonStep j a).setJob j (some { x with
          adapt := some { a with run := none, pausing := false, back := if a.pausing then 2 else st } })).setF (feSlm j) FE_SLM_ADAPT_state 3
      else s
    | none => s
  | none => s

/-- A switch of plan is marked (R299, R303). -/
def markSwitch (s : State) (j plan : Nat) (byFence : Bool) : State :=
  match s.job j with
  | none => s
  | some x =>
    let b := match x.switch with | some w => w.boundary | none => boundary x
    let s1 := (s.setJob j (some { x with switch := some ⟨b, plan, byFence⟩ })).setF (feSlm j) FE_SLM_STAT_switching 1
    (((s1.raise (feSlm j) 3).postRecord (feSlm j) 0x0707 0xFF)).adaptMoving j

/-- The physical rink of a logical one under a binding (R289). -/
def physRink (bind : List Nat) (logical : Nat) : Nat := 4 * (bind.getD (logical / 4) 0) + logical % 4

/-- Slalom learns that domain d of job j is fenced (R299, R300, R419): cells that the fence takes are lost, and the job moves to
the plan of the remaining domain count, or stops with NO_PLAN. -/
def fenceJob (s : State) (j d : Nat) : State :=
  match s.job j with
  | none => s
  | some x =>
    if x.stopping then s
    else if !x.domains.contains d then
      -- a domain that is back but holds no job (R417): only a force that counts on it is chosen again
      let s1 := s.setF (feSlm j) FE_SLM_STAT_live (clrBit (s.getF (feSlm j) FE_SLM_STAT_live) d)
      match x.switch with
      | some w =>
        if w.byFence || !bit (s.getF (feSlm j) FE_SLM_STAT_live) d then s1
        else match s1.planFor j x x.domains.length with
          | some p => s1.setJob j (some { x with switch := some { w with plan := p, byFence := true } })
          | none => s1
      | none => s1
    else
      let b := match x.switch with | some w => w.boundary | none => boundary x
      let sets := x.sets.map fun t =>
        if t.num < b ∨ t.begun then
          { t with cells := t.cells.map fun c =>
              let log := match x.blk.plans[t.plan]? with
                | some p => (match p.cells[c.cell]? with | some e => e.rink | none => 0)
                | none => 0
              if !c.done && c.rep.isNone && physRink t.bind log / 4 == d then { c with lost := true } else c }
        else t
      let doms := x.domains.filter (· != d)
      let s1 := (s.setJob j (some { x with domains := doms, sets := sets })).setF (feSlm j) FE_SLM_STAT_live
        (clrBit (s.getF (feSlm j) FE_SLM_STAT_live) d)
      match s1.planFor j x doms.length with
      | some p => s1.markSwitch j p true
      | none => (((s1.raise (feSlm j) 4).postRecord (feSlm j) 0x0708 0xFF)).stopJob j

/-- A domain at rest. -/
def domainAt (s : State) (d : Nat) : DomainSt := tabGet (fun _ => { resetTimes := [], winStart := 0 : DomainSt }) s.domains d
/-- A domain's state replaced. -/
def setDomain (s : State) (d : Nat) (x : DomainSt) : State :=
  { s with domains := tabPut (fun _ => { resetTimes := [], winStart := 0 : DomainSt }) s.domains d x }

/-- The times at which the domain left FENCED for RESETTING over the last 3,600 s (R415): PW_DOM_STATd.resets counts them. -/
def recentResets (s : State) (d : Nat) : List Nat :=
  (s.domainAt d).resetTimes.filter fun t => decide (s.time.elapsed < t + 3600000000000 * 2 ^ 32)

/-- The PLLs of a domain: its own and its rinks' (R557). -/
def domainPlls (d : Nat) : Nat := 2 ^ (12 + d) + 15 * 2 ^ (16 + 4 * d)

/-- A failure domain is fenced (R413 to R415, R17): code 0 for a commanded fence. -/
def fence (s : State) (d code : Nat) : State :=
  if s.domState d ≠ 0 then s
  else
    let s1 := ((((s.setF pwPage PW_DOM_STATd_state 1 d).setF pwPage PW_DOM_STATd_last_code code d).set64 pwPage PW_DOM_TLOd_t_lo
      PW_DOM_THId_t_hi s.ns d).satF pwPage PW_DOM_CNTd_fences 1 d).raise pwPage (16 + d)
    let s2 := s1.setF ckPage CK_LOCK_locked (clrMask (s1.getF ckPage CK_LOCK_locked) (domainPlls d))
    let jobs := [0, 1, 2, 3].filter fun j => match s2.job j with | some x => x.domains.contains d | none => false
    let s3 := (s2.closeWindows d).dropDomain d
    jobs.foldl (fun s j => s.fenceJob j d) s3

/-- A Domain-scope code of a domain (R415, R419, R572, R638): LIVE is fenced; RESETTING goes back to FENCED with the code
recorded; in a domain that is FENCED already, a code beside a commanded fence is recorded, and of several codes the lowest. An
entry to a power state is aborted. -/
def domainCode (s : State) (d code : Nat) : State :=
  let s1 :=
    match s.domState d with
    | 0 => s.fence d code
    | 2 => (s.setF pwPage PW_DOM_STATd_state 1 d).setF pwPage PW_DOM_STATd_last_code code d
    | 1 =>
      let old := s.getF pwPage PW_DOM_STATd_last_code d
      if s.get64 pwPage PW_DOM_TLOd_t_lo PW_DOM_THId_t_hi d = s.ns ∧ (old = 0 ∨ code < old) then
        s.setF pwPage PW_DOM_STATd_last_code code d
      else s
    | _ => s
  if s1.psState = 6 then s1.abortEntry
  else s1

/-! ### Posting -/

/-- A code is posted by a page (R25, R26): its record, then what its scope costs. -/
def post (s : State) (page code : Nat) (dom : Nat := 0xFF) : State :=
  match codeScope code with
  | 2 =>
    let s1 := s.postRecord page code 0xFF
    match s1.pageJob page with
    | some j => s1.stopJob j
    | none => s1
  | 3 =>
    let d := (pageDomain page).getD dom
    (s.postRecord page code d).domainCode d code
  | 4 => (s.postRecord page code 0xFF).deviceHalt page code
  | _ => s.postRecord page code 0xFF

/-- An event charged to a domain's threshold (R418): at the limit the domain takes a commanded fence. -/
def chargeDomain (s : State) (d n : Nat) : State :=
  let lim := s.getF pwPage PW_DOM_THRd_limit d
  if lim = 0 ∨ n = 0 ∨ s.domState d ≠ 0 then s
  else
    let s1 := s.satF pwPage PW_DOM_CNTd_events n d
    if lim ≤ s1.getF pwPage PW_DOM_CNTd_events d then s1.fence d 0 else s1

/-! ### Semaphore agents (R257 to R259) -/

/-- A count would exceed its limit, or an unused semaphore is used: the count is the limit, SEM_RANGE is posted and the job
stops (R259). -/
def semRange (s : State) (n x : Nat) : State :=
  let s1 := (s.setSem n x (s.semLimit n x)).setF (rk n) RK_SEM_FAULT_valid 1
  ((s1.setF (rk n) RK_SEM_FAULT_sem x).raise (rk n) 3).post (rk n) 0x0305

/-- A post of semaphore x by m (R258, R259). -/
def semPost (s : State) (n x : Nat) (m : Nat := 1) : State :=
  let v := s.semCount n x + m
  if s.semLimit n x = 0 ∨ s.semLimit n x < v then s.semRange n x else s.setSem n x v

/-- What a wait meets: the state with the count taken, SEM_RANGE's state, or nothing yet. -/
inductive Waited where
  | met (s : State)
  | range (s : State)
  | no

/-- A wait on semaphore x (R258, R259). -/
def semWait (s : State) (n x : Nat) : Waited :=
  if s.semLimit n x = 0 then .range (s.semRange n x)
  else if s.semCount n x = 0 then .no
  else .met (s.setSem n x (s.semCount n x - 1))

end State

end Sys2Proof.Machine
end

