-- ==== Sys2Proof/Machine/Tiles.lean ====
section
/-! DEFINITION. What a running operator reads: its slots and slot semaphores (R322, R323), the lane inputs of a T0 tile from the
core buffers (R131, R142, R144 to R147, R217, R218, R241), and the order in which the walk takes its T1 tiles (R212). -/

namespace Sys2Proof.Machine

namespace OpSt

/-- The product of a phase: P1, or P2 of a fused pair; and its extents and scale and codebook bank. -/
def oper (p : OpSt) (ph : Nat) : Oper := if ph = 0 then p.o else p.p2.getD p.o
def extOf (p : OpSt) (ph : Nat) : Dims := if ph = 0 then p.ext else p.ext2
def bankOf (p : OpSt) (ph : Nat) : QBank := if ph = 0 then p.regs else p.regs2

/-- The walk of the operator. -/
def visits (p : OpSt) : List Visit := walkOf p.o p.p2 p.ext p.ext2

/-- Slots of an operand at a level, and the operator with them replaced. -/
def slots (p : OpSt) (level : Nat) (weight : Bool) : Slots :=
  if level = 1 then (if weight then p.wt1 else p.act1) else if weight then p.wt2 else p.act2
def setSlots (p : OpSt) (level : Nat) (weight : Bool) (x : Slots) : OpSt :=
  if level = 1 then (if weight then { p with wt1 := x } else { p with act1 := x })
  else if weight then { p with wt2 := x } else { p with act2 := x }

/-- The cell's height H and width (R268). -/
def cellH (p : OpSt) : Nat := geomH p.rcd.geom
def cellW (p : OpSt) : Nat := p.rcd.width

/-- The sizes by dimension of a product's tiles at a level. -/
def sizes (p : OpSt) (ph level : Nat) : Nat → Nat :=
  let o := p.oper ph
  if level = 1 then o.t1 else o.t2 (schedOf o.l (p.extOf ph))

/-- The byte address in its buffer of a T1 slot: the operator's slots follow one another (R221). -/
def slotAddr (p : OpSt) (ph : Nat) (weight : Bool) (slot : Nat) : Nat :=
  let o := p.oper ph
  if weight then 64 * o.l.wbufBase + slot * o.wSlot o.t1 else 64 * o.l.abufBase + slot * o.aSlot o.t1

/-- The scratchpad address of a T2 slot: activation slots first, then weight slots (log 26). -/
def slotAddr2 (p : OpSt) (ph f : Nat) (weight : Bool) (slot : Nat) : Nat :=
  let o := p.oper ph
  let sz := p.sizes ph 2
  let a := if o.l.actExt then o.aSlot sz else 0
  64 * p.o.l.t2Base + (if weight then (f + 1) * a + slot * o.wSlot sz else slot * a)

/-- The intermediate area of a fused pair in the activation buffer, after P1's slots (R192; log 26). -/
def interAddr (p : OpSt) (f : Nat) : Nat := p.slotAddr 0 false (f + 1)
/-- Bytes of a row of it. -/
def interRow (p : OpSt) : Nat := ru64 (cdiv (Oper.half p.o.q.out * Dims.at' p.ext dOC) 2)

/-- The slot that holds a tile, filled. -/
def slotOf (x : Slots) (tile : Nat) : Option Nat :=
  match x.held.find? (fun h => h.1 == tile && h.2.2) with
  | some h => some h.2.1
  | none => none

end OpSt

/-- A reader of a core buffer. -/
def memReader (m : List Host.Cell) : Reader := fun a n => memRead m a n

namespace State

/-- The job's fetch-ahead depth as core k's Chairlift holds it (R322). -/
def fahead (s : State) (k : Nat) : Nat := s.getF (clCore k) CL_CFG_fahead

/-- A slot semaphore: level, operand, and filled or free (R323, R355). -/
def slotSem (s : State) (k level : Nat) (weight filled : Bool) : Nat :=
  let lo := (if weight then 8 else 0) + if filled then 0 else 4
  let w := if level = 1 then s.word (clCore k + 0x48) else s.getF (clRink (k / 8)) CL_T2SEMc_sems (k % 8)
  bits w (lo + 3) lo
def setSlotSem (s : State) (k level : Nat) (weight filled : Bool) (v : Nat) : State :=
  let lo := (if weight then 8 else 0) + if filled then 0 else 4
  if level = 1 then s.setWord (clCore k + 0x48) (setBits (s.word (clCore k + 0x48)) (lo + 3) lo v)
  else
    let w := s.getF (clRink (k / 8)) CL_T2SEMc_sems (k % 8)
    s.setF (clRink (k / 8)) CL_T2SEMc_sems (setBits w (lo + 3) lo v) (k % 8)

/-- The slot semaphores of a core's operator at their initial values (R323). -/
def resetSlots (s : State) (k : Nat) : State :=
  [(1, false), (1, true), (2, false), (2, true)].foldl (fun s lw =>
    (s.setSlotSem k lw.1 lw.2 true 0).setSlotSem k lw.1 lw.2 false (s.fahead k + 1)) s

/-- The walker begins to use a tile of an operand at a level: filled gives one, and the tile before it frees its slot
(R323). -/
def beginTile (s : State) (k level : Nat) (weight : Bool) (tile : Nat) (p : OpSt) : State × OpSt :=
  let x := p.slots level weight
  if x.cur = some tile then (s, p)
  else
    let (s1, held) : State × List (Nat × Nat × Bool) := match x.cur with
      | some t => (s.setSlotSem k level weight false (s.slotSem k level weight false + 1), x.held.filter fun h => h.1 != t)
      | none => (s, x.held)
    (s1.setSlotSem k level weight true (s1.slotSem k level weight true - 1),
      p.setSlots level weight { x with held := held, cur := some tile, begun := tile :: x.begun })

/-! ### Lane inputs -/

/-- The scale exponent of an input row (R148, R241): static, per row, or of the intermediate of a fused pair. -/
def inExp (s : State) (k : Nat) (p : OpSt) (ph row : Nat) : Int :=
  let o := p.oper ph
  if ph = 1 then p.interExp.getD (row % 32) 0
  else if o.q.perRow then toSigned 8 (le (s.spadRd (k / 8) (o.d.rsIn + row) 1) 0 1)
  else o.q.ein

/-- A lane input from a code. -/
def laneOf (o : Oper) (c : Nat) (e : Int) (counts : Bool) : LaneIn :=
  let v := elemVal o.q.act o.q.zin c
  ⟨v.1.shift e, counts, v.2 && counts⟩

/-- The element of a planar map at a channel, row and column, from the T1 slot at `base` whose tile starts at `st`. -/
def planarLane (s : State) (k : Nat) (p : OpSt) (st : Dims) (base c : Nat) (y x : Int) (inb : Bool) : LaneIn :=
  let o := p.o
  let inH := o.inH p.cellH
  let inW := o.inW p.cellW
  let e := s.inExp k p 0 (expRow o inH y)
  if !inb then laneOf o o.l.actPad e false
  else
    let real := inside inH y && inside inW x
    let iy := o.spanY o.t1
    let rb := o.rowBytes o.t1
    let ci := c - st.at' o.chDim
    let yi := (y - originY o st).toNat
    let xi := (x - originX o st).toNat
    let code := codeAt (memReader (s.core k).abuf) (base + (ci * iy + yi) * rb) o.q.act xi
    if !real && o.d.padMode = 0 then ⟨.zero, false, false⟩ else laneOf o code e real

/-- The element of a row-layout operand at a token row and reduction index (R148); P2's comes from the intermediate. -/
def rowLane (s : State) (k : Nat) (p : OpSt) (ph : Nat) (st : Dims) (base oy ox ic : Nat) (inb : Bool) : LaneIn :=
  let o := p.oper ph
  let ext := p.extOf ph
  let e := s.inExp k p ph (min oy (ext.at' dOY - 1))
  if !inb then laneOf o o.l.actPad e false
  else
    let rd := memReader (s.core k).abuf
    let code :=
      if ph = 1 then codeAt rd (p.interAddr (s.fahead k) + oy % 32 * p.interRow) o.q.act ic
      else codeAt rd (base + ((oy - st.at' dOY) * o.t1 dOX + (ox - st.at' dOX)) * o.rowBytes o.t1) o.q.act (ic - st.at' dIC)
    laneOf o code e true

/-- The loop indices lie below the extents. -/
def inBounds (ext : Dims) (ds : List (Nat × Nat)) : Bool := ds.all fun d => decide (d.2 < ext.at' d.1)

/-- The reduction elements of a T0 tile as (ky, kx, ic). In Winograd mode the taps belong to the filter. -/
def redBox (o : Oper) (st : Dims) : List (Nat × Nat × Nat) :=
  let ny := if o.winograd then 1 else o.l.t0 dKY
  let nx := if o.winograd then 1 else o.l.t0 dKX
  (List.range ny).flatMap fun a => (List.range nx).flatMap fun b => (List.range (o.l.t0 dIC)).map fun c =>
    (st.at' dKY + a, st.at' dKX + b, st.at' dIC + c)

/-- The positions of a T0 tile as (ox, oy), OX fastest. -/
def posBox (o : Oper) (st : Dims) : List (Nat × Nat) :=
  (List.range (o.l.t0 dOY)).flatMap fun a => (List.range (o.l.t0 dOX)).map fun b => (st.at' dOX + b, st.at' dOY + a)

/-- The activation vectors of a T0 tile, by position (R167, R185). -/
def actVectors (s : State) (k : Nat) (p : OpSt) (v : Visit) (x : Step0) (base : Nat) : List (List LaneIn) :=
  let ph := v.phase
  let o := p.oper ph
  let ext := p.extOf ph
  let (sx, sy, dx, dy) := o.geo
  (posBox o x.start).map fun (ox, oy) => (redBox o x.start).map fun (ky, kx, ic) =>
    if o.winograd then
      let inb := inBounds ext [(dOX, ox), (dOY, oy), (dIC, ic)]
      let patch : List (List LaneIn) := (List.range 4).map fun (i : Nat) => (List.range 4).map fun (j : Nat) =>
        s.planarLane k p v.t1 base ic (2 * (oy : Int) - o.d.padT + (i : Nat)) (2 * (ox : Int) - o.d.padL + (j : Nat)) inb
      ⟨winoInput (patch.map fun r => r.map (·.x)) x.el, inb, x.el == 0 && patch.any fun r => r.any (·.nonfin)⟩
    else
      let inb := inBounds ext [(dOX, ox), (dOY, oy), (dIC, ic), (dKX, kx), (dKY, ky)]
      if o.isConv then
        s.planarLane k p v.t1 base ic (((oy * sy + ky * dy : Nat) : Int) - o.d.padT) (((ox * sx + kx * dx : Nat) : Int) - o.d.padL) inb
      else s.rowLane k p ph v.t1 base oy ox ic inb

/-- A weight: its value with its channel's scale, whether it is a number, and whether a codebook index lies beyond the codebook
(R144 to R147). -/
def weightVal (o : Oper) (b : QBank) (oc c : Nat) : Dy × Bool × Bool :=
  match b.privOf oc with
  | some w =>
    let i := if bit w 16 then c else 16 * bits w 20 17 + c
    ((codebookVal (b.cb.getD i 0)).shift (b.scale oc), false, decide (o.q.cb ≤ i))
  | none =>
    let v := elemVal o.q.wt 0 c
    (v.1.shift (b.scale oc), v.2, false)

/-- The weight columns of a T0 tile, by channel, and whether an index lies beyond the codebook. -/
def weightColumns (s : State) (k : Nat) (p : OpSt) (v : Visit) (x : Step0) (base : Nat) : List (List LaneIn) × Bool :=
  let ph := v.phase
  let o := p.oper ph
  let ext := p.extOf ph
  let b := p.bankOf ph
  let rd := memReader (s.core k).wbuf
  let code := fun oc ky kx ic => codeAt rd base o.q.wt (weightIdx v.t1 o.t1 oc ky kx ic)
  let cols := (List.range (o.l.t0 dOC)).map fun j =>
    let oc := x.start.at' dOC + j
    (redBox o x.start).map fun (ky, kx, ic) =>
      if !inBounds ext [(dOC, oc), (dIC, ic), (dKX, kx), (dKY, ky)] then ((⟨.zero, false, false⟩ : LaneIn), false)
      else if o.winograd then
        let g : List (List (Dy × Bool × Bool)) :=
          (List.range 3).map fun i => (List.range 3).map fun j => weightVal o b oc (code oc i j ic)
        let bad := g.any fun (r : List (Dy × Bool × Bool)) => r.any (·.2.1)
        (⟨winoFilter (g.map fun (r : List (Dy × Bool × Bool)) => r.map Prod.fst) x.el, true, x.el == 0 && bad⟩, false)
      else
        let w := weightVal o b oc (code oc ky kx ic)
        (⟨w.1, true, w.2.1⟩, w.2.2)
  (cols.map fun c => c.map (·.1), cols.any fun c => c.any (·.2))

/-! ### The order of the walk -/

/-- Both operands' T1 tiles of a visit are in the core buffers (R212, R323); P2 waits for its block of the intermediate. -/
def present (p : OpSt) (v : Visit) : Bool :=
  let has := fun (x : Slots) t => x.cur == some t || (OpSt.slotOf x t).isSome
  (if v.phase = 1 then v.steps.all (fun x => x.skip || decide (x.start.at' dOY / 32 < p.blocks)) else has p.act1 v.act1) &&
  (!(p.oper v.phase).hasWeights || has p.wt1 v.wt1)

/-- The visits of one output T1 tile (R212). -/
def sameOut (a b : Visit) : Bool :=
  a.phase == b.phase && a.t2 == b.t2 && [dOC, dOX, dOY].all fun d => a.t1.at' d == b.t1.at' d

/-- The visit that the walk takes next, if its tiles are present: in table order, or under arr_order the first present of its
output tile (R212). -/
def nextVisit (p : OpSt) : Option Nat :=
  let vs := p.visits.zipIdx
  let rest := vs.filter fun v => !v.1.skip && !p.taken.contains v.2
  match rest with
  | [] => none
  | h :: _ =>
    if (p.oper h.1.phase).l.arrOrder then
      ((rest.filter fun v => sameOut v.1 h.1).find? fun v => present p v.1).map (·.2)
    else if present p h.1 then some h.2 else none

end State

end Sys2Proof.Machine
end

