-- ==== Sys2Proof/Machine/Arrays.lean ====
section
/-! DEFINITION. The array as commands (R166 to R170, R195 to R197, R225, R226): a T0 tile issues, and its sums reach accumulator
memory. Row-unit operators take their inputs through the same walk. -/

namespace Sys2Proof.Machine

namespace OpSt

/-- The reduction steps of an output tile of a phase. -/
def stepsOf (p : OpSt) (ph : Nat) : Nat := stepsPerTile (p.oper ph) (p.extOf ph)

/-- An accumulator tile that has taken its last step is Complete (R171). -/
def complete (p : OpSt) (a : AccTile) : Bool := decide (p.stepsOf a.phase ≤ a.added)

/-- Rows of a phase take their exponent by first pass (R150, R159, R192, R287); a format without row scale has none (R154). -/
def firstPass (p : OpSt) (ph : Nat) : Bool :=
  let o := p.oper ph
  (p.o.isPair && ph == 0) || (!(11 ≤ o.q.out && o.q.out ≤ 13) && (o.q.mode == 1 || (o.q.mode == 2 && p.rcd.firstPass)))

/-- The output T0 tiles of a row of tiles: those that share the start in OY (R156). -/
def rowTiles (p : OpSt) (ph : Nat) : Nat :=
  let o := p.oper ph
  let ext := p.extOf ph
  let n := fun d => cdiv (ext.at' d) (max 1 (o.l.t0 d))
  n dOX * (if o.isArgmax || o.isRowFn then 1 else n dOC) * if o.winograd then 16 else 1

/-- The tiles that the operator holds of the row of a tile. -/
def rowOf (p : OpSt) (a : AccTile) : List AccTile := p.accs.filter fun b => b.phase == a.phase && b.oy == a.oy

/-- Output tiles of a tile's row that have drained. -/
def drainedOf (p : OpSt) (a : AccTile) : Nat :=
  match p.drained.find? (fun e => e.1 == a.oy * 2 + a.phase) with | some e => e.2 | none => 0

/-- A tile whose row is read by first pass waits until every tile of the row is Complete (R155, R156). -/
def rowReady (p : OpSt) (a : AccTile) : Bool :=
  (p.rowOf a).all p.complete && (p.rowOf a).length + p.drainedOf a == p.rowTiles a.phase

/-- A tile that cannot return to Free before a new tile is written (R225). -/
def blocked (p : OpSt) (a : AccTile) : Bool := !p.complete a || (p.firstPass a.phase && !p.rowReady a)

/-- A tile replaced. -/
def setTile (p : OpSt) (a : AccTile) : OpSt := { p with accs := p.accs.map fun b => if b.num = a.num then a else b }

/-- A tile gone. -/
def dropTile (p : OpSt) (n : Nat) : OpSt := { p with accs := p.accs.filter fun b => b.num != n }

/-- The place of an input of a row-unit operator: output row, column, channel, tap. -/
def insKey (oy ox oc tap : Nat) : Nat := ((oy * 2 ^ 24 + ox) * 2 ^ 24 + oc) * 2 ^ 12 + tap

end OpSt

namespace State

/-- An operator of a core replaced: the current one, or the one draining. -/
def setCur (s : State) (k : Nat) (p : OpSt) : State := s.setCore k { s.core k with cur := some p }
def setDrain (s : State) (k : Nat) (p : OpSt) : State := s.setCore k { s.core k with drain := some p }

/-- CR_OP_CUR and CR_OP_DRAIN show the operators in flight (R200). -/
def showOps (s : State) (k : Nat) : State :=
  let c := s.core k
  let s1 := (s.setF (cr k) CR_OP_CUR_valid (b01 c.cur.isSome)).setF (cr k) CR_OP_DRAIN_valid (b01 c.drain.isSome)
  let s2 := match c.cur with | some p => s1.setF (cr k) CR_OP_CUR_desc p.desc | none => s1
  match c.drain with | some p => s2.setF (cr k) CR_OP_DRAIN_desc p.desc | none => s2

/-- An operator whose walk has ended drains once no other does (R174, R179). -/
def shiftOp (s : State) (k : Nat) : State :=
  let c := s.core k
  match c.cur, c.drain with
  | some p, none => if p.walked then (s.setCore k { c with cur := none, drain := some p }).showOps k else s.showOps k
  | _, _ => s.showOps k

/-- An operator ends early (R181, R226, R325): its cell is flagged, its walk ends and its fetched work is cancelled. -/
def endEarly (s : State) (k : Nat) (p : OpSt) : State :=
  let none' : Slots := ⟨[], [], [], none⟩
  let s1 := ((s.flagRec (k / 8) p.recNo).cancelOp k p).resetSlots k
  (s1.setCur k { p with
    walked := true, early := true, visit := none, act1 := none', wt1 := none', act2 := none', wt2 := none' }).shiftOp k

/-- Skipped tiles counted (R216, R227). -/
def skipped (s : State) (k n : Nat) : State := s.wrapF (cr k) CR_WALK_SKIP_skipped n

/-- Skipped T1 and T2 tiles at the head of the walk are passed over; when nothing is left the walk has ended. -/
def passSkips (s : State) (k : Nat) (p : OpSt) : State × OpSt :=
  let vs := p.visits.zipIdx.filter fun v => !p.taken.contains v.2
  let head := vs.takeWhile fun v => v.1.skip
  let p1 := { p with taken := head.map (·.2) ++ p.taken, walked := head.length == vs.length }
  (s.skipped k head.length, p1)

/-- After a T0 tile of a visit: skipped T0 tiles are passed over, and the visit may have ended. -/
def afterStep (s : State) (k : Nat) (p : OpSt) (v : Visit) (vi next : Nat) : State × OpSt :=
  let rest := v.steps.drop next
  let n := (rest.takeWhile fun x => x.skip).length
  let s1 := s.skipped k n
  if n = rest.length then s1.passSkips k { p with taken := vi :: p.taken, visit := none, step := 0 }
  else (s1, { p with visit := some vi, step := next + n })

/-- The walker begins a visit: its tiles at T1 and T2 come into use (R215, R323), and leading skipped T0 tiles are passed over. -/
def beginVisit (s : State) (k : Nat) (p : OpSt) (v : Visit) (vi : Nat) : State × OpSt :=
  let o := p.oper v.phase
  let use := fun (x : State × OpSt) (on : Bool) level weight tile => if on then x.1.beginTile k level weight tile x.2 else x
  let a := v.phase == 0
  let x := use (s, p) (a && o.l.actExt) 2 false v.act2
  let x := use x (o.hasWeights && o.l.wtExt) 2 true v.wt2
  let x := use x a 1 false v.act1
  let x := use x o.hasWeights 1 true v.wt1
  let n := (v.steps.takeWhile fun t => t.skip).length
  (x.1.skipped k n, { x.2 with visit := some vi, step := n })

/-- The accumulator tiles held and the peak shown in CR_WALK_ACC (R227). -/
def showHeld (s : State) (k : Nat) (p : OpSt) : State :=
  let s1 := s.setF (cr k) CR_WALK_ACC_held p.accs.length
  s1.setF (cr k) CR_WALK_ACC_peak (max (s1.getF (cr k) CR_WALK_ACC_peak) p.accs.length)

/-- What opening an accumulator tile comes to (R225): opened, waiting, or refused because every tile held is blocked. -/
inductive Opened where
  | opened (s : State) (p : OpSt) (a : AccTile)
  | wait
  | overflow

/-- The accumulator tile of a T0 tile: the one that holds its output, or a new one (R225). -/
def openTile (s : State) (k : Nat) (p : OpSt) (ph : Nat) (x : Step0) : Opened :=
  let o := p.oper ph
  let oc := if o.isArgmax || o.isRowFn then 0 else x.start.at' dOC
  let ox := x.start.at' dOX
  let oy := x.start.at' dOY
  match p.accs.find? (fun a => a.phase == ph && a.oc == oc && a.ox == ox && a.oy == oy && a.el == x.el) with
  | some a => .opened s p a
  | none =>
    let limit := if p.o.isPair then 64 else o.l.accLimit
    if limit ≤ p.accs.length then (if p.accs.all p.blocked then .overflow else .wait)
    else
      let used := (s.ops k).flatMap fun q => q.accs.map (·.num)
      match (List.range 64).find? (fun n => !used.contains n) with
      | none => .wait
      | some n =>
        let a : AccTile := ⟨n, ph, oc, ox, oy, x.el, 0, 0⟩
        let c := s.core k
        let s1 := s.setCore k { c with acc := c.acc.filter fun e => e.1 / 1024 != n }
        .opened (s1.countEvt (cr k) 0x18 1) { p with accs := p.accs ++ [a] } a

/-- Inputs that a T0 tile of a row-unit operator takes: pool taps in the image or counted, pixels' channels, row elements. -/
def gather (s : State) (k : Nat) (p : OpSt) (v : Visit) (x : Step0) (base : Nat) : List (Nat × LaneIn) :=
  let o := p.o
  let ext : Dims := p.ext
  let (sx, sy, dx, dy) := o.geo
  (posBox o x.start).flatMap fun (ox, oy) =>
    if !inBounds ext [(dOX, ox), (dOY, oy)] then []
    else if o.isRowFn then
      (redBox o x.start).filterMap fun (_, _, ic) =>
        if ic < ext.at' dIC then some (OpSt.insKey oy ox ic 0, s.rowLane k p 0 v.t1 base oy ox ic true) else none
    else
      (List.range (o.l.t0 dOC)).flatMap fun j =>
        let oc := x.start.at' dOC + j
        if ext.at' dOC ≤ oc then []
        else if o.isArgmax then [(OpSt.insKey oy ox oc 0, s.planarLane k p v.t1 base oc oy ox true)]
        else (redBox o x.start).filterMap fun (ky, kx, _) =>
          let y : Int := ((oy * sy + ky * dy : Nat) : Int) - o.d.padT
          let xx : Int := ((ox * sx + kx * dx : Nat) : Int) - o.d.padL
          let real := inside (o.inH p.cellH) y && inside (o.inW p.cellW) xx
          if inBounds ext [(dKX, kx), (dKY, ky)] && (real || (o.countPad && o.d.kind == 6)) then
            some (OpSt.insKey oy ox oc (ky * 64 + kx), s.planarLane k p v.t1 base oc y xx true)
          else none

/-- The counts of elements flushed and not finite (R132, R142, R143). -/
def countLanes (s : State) (k : Nat) (p : OpSt) (flush nonfin : Nat) : State :=
  let s1 := if flush = 0 then s else (s.satF (cr k) CR_CNT_FLUSH_count flush).countEvt (cr k) 0x1A flush
  if nonfin = 0 then s1 else (s1.satF (cr k) CR_CNT_NONFIN_count nonfin).saturated k p.desc nonfin

/-- A T0 tile enters the array or the row unit: the accumulator tile is open. -/
def enterTile (s : State) (k : Nat) (p : OpSt) (v : Visit) (x : Step0) (a : AccTile) : State × OpSt :=
  let o := p.oper v.phase
  let aBase := p.slotAddr v.phase false ((OpSt.slotOf p.act1 v.act1).getD 0)
  let wBase := p.slotAddr v.phase true ((OpSt.slotOf p.wt1 v.wt1).getD 0)
  let c := s.core k
  let s0 := (s.setCore k { c with active := p.bankOf v.phase }).wrapF (cr k) CR_WALK_CNT_t0_issued
  let s1 := s0.countEvt (cr k) 0x10 1
  if o.onRowUnit then
    let xs := s1.gather k p v x aBase
    let p1 := p.setTile { a with issued := a.issued + 1, added := a.added + 1 }
    (s1.countLanes k p 0 (xs.filter fun l => l.2.nonfin).length, { p1 with ins := xs.map (fun l => (l.1, l.2.x)) ++ p1.ins })
  else
    let acts := s1.actVectors k p v x aBase
    let (wts, bad) := s1.weightColumns k p v x wBase
    let fa := acts.flatten
    let fw := wts.flatten
    let sums := arraySums o.q.act o.q.wt o.winograd acts wts
    let live := (posBox o x.start).map fun (ox, oy) => inBounds (p.extOf v.phase) [(dOX, ox), (dOY, oy)]
    let flush := flushed o.q.act (baseExp fa) fa + flushed o.q.wt (baseExp fw) fw
    let nonfin := ((fa ++ fw).filter fun l => l.nonfin).length
    let s2 := ((s1.countEvt (cr k) 0x11 sums.length).countLanes k p flush nonfin)
    let s3 := if bad then ((s2.markFault k 0x0205 p.desc)).post (cr k) 0x0205 else s2
    let p1 := p.setTile { a with issued := a.issued + 1 }
    (s3, { p1 with arr := p1.arr ++ [⟨a.num, sums, live⟩] })

/-- A T0 tile issues (R212, R215, R216, R225). -/
def t0Issue (s : State) (k : Nat) : State :=
  match (s.core k).cur with
  | none => s
  | some p0 =>
    if p0.walked then s
    else
      let (s0, p) := s.passSkips k p0
      match (match p.visit with | some i => some i | none => nextVisit p) with
      | none => s
      | some vi =>
        match p.visits[vi]? with
        | none => s
        | some v =>
          let (s1, p1) := if p.visit.isSome then (s0, p) else s0.beginVisit k p v vi
          match v.steps[p1.step]? with
          | none => s
          | some x =>
            match s1.openTile k p1 v.phase x with
            | .wait => s
            | .overflow => ((s1.setCur k p1).postOp k 0x0104 p1.desc).endEarly k p1
            | .opened s2 p2 a =>
              let (s3, p3) := s2.enterTile k p2 v x a
              -- an index beyond the codebook has stopped the job, and with it the core (R147)
              if (s3.core k).cur.isNone then s3
              else
                let (s4, p4) := s3.afterStep k p3 v vi (p1.step + 1)
                ((s4.setCur k p4).showHeld k p4).shiftOp k

/-! ### Sums into accumulator memory -/

/-- The column registers of a pass at position 31, with bits inverted (R197). -/
def flipSums (sums : List (List Int)) (flips : List (Nat × Nat)) : List (List Int) :=
  sums.zipIdx.map fun r =>
    if r.2 = 31 then flips.foldl (fun row f => match row[f.1]? with | some v => setAt row f.1 (flipBit v f.2) | none => row) r.1
    else r.1

/-- Columns whose register disagrees with the residue predicted from its products (R195, R196). The prediction for correct
sums is their own residue. -/
def badColumns (sums faulty : List (List Int)) : List Nat :=
  (List.range 32).filter fun j => (sums.zip faulty).any fun r =>
    registerResidue (r.1.getD j 0) != registerResidue (r.2.getD j 0)

/-- One register added to accumulator memory (R137, R139): the new word and whether it saturated. -/
def addWord (o : Oper) (lsb ea ew : Int) (old : Nat) (sum : Int) : Nat × Bool :=
  if o.q.accInt then
    let i := toSigned 32 old + ((Dy.mk sum lsb).shift (-(ea + ew))).floor 0
    let w := satSigned 32 i
    (w, toSigned 32 w != i)
  else encodeFloat fp32 ((of32 old).add ⟨sum, lsb⟩)

/-- The scale exponent of the activations that meet an output row (R138): of its token row, or of the input row of tap 0. -/
def rowScale (s : State) (k : Nat) (p : OpSt) (ph oy : Nat) : Int :=
  let o := p.oper ph
  if o.isConv then s.inExp k p ph (expRow o (o.inH p.cellH) (((oy * o.d.sy : Nat) : Int) - o.d.padT)) else s.inExp k p ph oy

/-- The sums of a T0 tile added pass by pass; saturated elements are counted. -/
def addSums (s : State) (k : Nat) (p : OpSt) (a : AccTile) (t : ArrTile) : State × Nat :=
  let o := p.oper a.phase
  let b := p.bankOf a.phase
  let ext := p.extOf a.phase
  let pos := posBox o [a.oc, a.ox, a.oy, 0, 0, 0]
  t.passes.foldl (fun (x : State × Nat) pass =>
    (pos.zip (pass.2.zip t.live)).zipIdx.foldl (fun (x : State × Nat) q =>
      let row := q.1.2.1
      if !q.1.2.2 then x
      else
        let ea := if o.q.accInt then x.1.rowScale k p a.phase q.1.1.2 else 0
        (List.range row.length).foldl (fun (x : State × Nat) j =>
          if ext.at' dOC ≤ a.oc + j then x
          else
            let c := x.1.core k
            let key := a.num * 1024 + q.2 * 32 + j
            let (w, sat) := addWord o pass.1 ea (b.scale (a.oc + j)) (tabGet (fun _ => 0) c.acc key) (row.getD j 0)
            (x.1.setCore k { c with acc := tabPut (fun _ => 0) c.acc key w }, x.2 + b01 sat)) x) x) (s, 0)

/-- RESIDUE for the columns that mismatched (R196, R418). -/
def residue (s : State) (k : Nat) (p : OpSt) (cols : List Nat) : State :=
  if cols.isEmpty then s
  else
    let s1 := (s.satF (cr k) CR_RES_STAT_mismatches cols.length).setF (cr k) CR_RES_STAT_column (cols.getLast?.getD 0)
    let s2 := ((s1.markFault k 0x0701 p.desc).raise (cr k) 2).postRecord (cr k) 0x0701 0xFF
    (s2.flagRec (k / 8) p.recNo).chargeDomain (k / 32) cols.length

/-- The last sums of the oldest T0 tile in the array reach accumulator memory, and its residues are compared (R137, R139, R170,
R196, R197). `flips` are the upsets that the array suffered at position 31 of the last pass. Positions beyond the T0 box hold sums
of 0 (log 27). -/
def t0Complete (s : State) (k : Nat) (flips : List (Fin 32 × Fin 48)) : State :=
  let c := s.core k
  let inDrain := match c.drain with | some p => !p.arr.isEmpty | none => false
  match (if inDrain then c.drain else c.cur) with
  | none => s
  | some p =>
    match p.arr with
    | [] => s
    | t :: rest =>
      match p.accs.find? (fun a => a.num == t.acc) with
      | none => s
      | some a =>
        let armed := s.flag (cr k) CR_RES_INJECT_arm
        let all := (flips.map fun f => (f.1.val, f.2.val)) ++
          if armed then [(s.getF (cr k) CR_RES_INJECT_column, s.getF (cr k) CR_RES_INJECT_bit)] else []
        let last := t.passes.length - 1
        let full := t.passes.map fun q => (q.1, q.2 ++ List.replicate (32 - q.2.length) (List.replicate 32 (0 : Int)))
        let faulty := full.zipIdx.map fun q => if q.2 = last then (q.1.1, flipSums q.1.2 all) else q.1
        let cols := (full.zip faulty).flatMap fun q => badColumns q.1.2 q.2.2
        let s1 := if armed then s.setF (cr k) CR_RES_INJECT_arm 0 else s
        let (s2, sat) := s1.addSums k p a { t with passes := faulty }
        let p1 := { p.setTile { a with added := a.added + 1 } with arr := rest }
        let s3 := if inDrain then s2.setDrain k p1 else s2.setCur k p1
        (s3.saturated k p.desc sat).residue k p cols

end State

/-- T0_TILE_ISSUE (R225). -/
def execT0TileIssue (k : Fin 128) (s : State) : Host.Outcome State Fault Refusal := s.eng (s.t0Issue k)

/-- T0_TILE_COMPLETE (R170). -/
def execT0TileComplete (k : Fin 128) (flips : List (Fin 32 × Fin 48)) (s : State) : Host.Outcome State Fault Refusal :=
  s.eng (s.t0Complete k flips)

end Sys2Proof.Machine
end

