-- ==== Sys2Proof/Machine/Drain.lean ====
section
/-! DEFINITION. The drain path and the row unit as commands (R149 to R160, R186 to R192, R219, R226, R247 to R254, R424): a Complete
tile is read, scaled, converted and written to the scratchpad, and an operator completes (R177, R181). -/

namespace Sys2Proof.Machine

/-- One output element: its row, column and channel, and its value. -/
structure OutElem where
  y : Nat
  x : Nat
  c : Nat
  v : Dy
  deriving DecidableEq, Repr

/-- What the row unit makes of a row: FP32 results and whether one was not finite (R188 to R190). `par` gives γ or a, and β or b,
by element. -/
def rowUnit (fn : Nat) (xs : List Nat) (ga be : Nat → Nat) (eps : Nat) : List Nat × Bool :=
  let ins := xs.map flushSub
  let vals := ins.map of32
  let n := ins.length
  let g := (List.range n).map fun i => of32 (ga i)
  let exact := if fn < 0x10 then vals.zipIdx.map fun p => elemFn fn p.1 (of32 (ga p.2)) (of32 (be p.2))
    else rowFn fn vals g ((List.range n).map fun i => of32 (be i)) (of32 eps)
  let rs := exact.zipIdx.map fun p => fnResult fn (if fn < 0x10 then [ins.getD p.2 0] else ins) p.2 p.1 (g.getD p.2 .zero)
  (rs.map (·.1), rs.any (·.2))

namespace OpSt

/-- The inputs gathered for a pixel and channel, in tap order (R249). -/
def tapsOf (p : OpSt) (oy ox oc : Nat) : List Dy :=
  (List.range p.o.d.ky).flatMap fun ky => (List.range p.o.d.kx).filterMap fun kx =>
    (p.ins.find? fun e => e.1 == insKey oy ox oc (ky * 64 + kx)).map fun e => e.2

/-- The input gathered for a row element or a pixel's channel. -/
def inOf (p : OpSt) (oy ox oc : Nat) : Dy :=
  match p.ins.find? (fun e => e.1 == insKey oy ox oc 0) with | some e => e.2 | none => .zero

/-- POOL_MAX and POOL_AVG (R248 to R250): a window without a tap that takes part gives 0. -/
def poolVal (p : OpSt) (oy ox oc : Nat) : Dy :=
  let ts := p.tapsOf oy ox oc
  match ts with
  | [] => .zero
  | t :: r =>
    if p.o.d.kind = 5 then r.foldl (fun m x => if m.lt x then x else m) t
    else
      let n := if p.o.countPad then p.o.d.kx * p.o.d.ky else ts.length
      of32 (to32 ((ts.foldl (fun s x => round64 (s.add x)) Dy.zero).div (.ofInt (n : Int))))

/-- The class and score of a pixel (R251). -/
def classify (p : OpSt) (oy ox : Nat) : Nat × Dy :=
  let best := (List.range (p.o.d.ncls + 1)).foldl (fun (b : Nat × Dy) c =>
    let v := p.inOf oy ox c
    if c = 0 ∨ b.2.lt v then (c, v) else b) (0, .zero)
  if best.2.lt (of32 p.o.d.param0) then (p.o.d.param1 % 256, best.2) else best

end OpSt

namespace State

/-- The value that a word of accumulator memory stands for: FP32, or an INT32 times the scales (R137, R139). -/
def accVal (s : State) (k : Nat) (p : OpSt) (a : AccTile) (pos j oy : Nat) : Dy :=
  let o := p.oper a.phase
  let w := tabGet (fun _ => 0) (s.core k).acc (a.num * 1024 + pos * 32 + j)
  if o.q.accInt then ⟨toSigned 32 w, s.rowScale k p a.phase oy + (p.bankOf a.phase).scale (a.oc + j)⟩ else of32 w

/-- The FP32 vectors of a row function: from the scratchpad for ROWFN; a fused pair's descriptor names none (log 25). -/
def fnGamma (s : State) (k : Nat) (p : OpSt) (i : Nat) : Nat :=
  if p.o.isPair then (Config.pairGamma p.desc i).toNat else le (s.spadRd (k / 8) (p.o.d.aux + 4 * i) 4) 0 4
def fnBeta (s : State) (k : Nat) (p : OpSt) (i : Nat) : Nat :=
  if p.o.isPair then (Config.pairBeta p.desc i).toNat else le (s.spadRd (k / 8) (p.o.d.aux2 + 4 * i) 4) 0 4

/-- The in-bounds outputs of a Complete tile, position by position, and whether a row-unit result was not finite (R186, R188,
R219, R247 to R251). -/
def tileOut (s : State) (k : Nat) (p : OpSt) (a : AccTile) : List OutElem × Bool :=
  let o := p.oper a.phase
  let ext := p.extOf a.phase
  let pos := posBox o [a.oc, a.ox, a.oy, 0, 0, 0]
  if o.isRowFn then
    let n := ext.at' dIC
    let rows := (pos.filter fun q => inBounds ext [(dOX, q.1), (dOY, q.2)]).map fun q =>
      let r := rowUnit o.d.fn ((List.range n).map fun i => to32 (p.inOf q.2 q.1 i)) (s.fnGamma k p) (s.fnBeta k p) o.d.param0
      ((List.range n).map fun i => (⟨q.2, q.1, i, of32 (r.1.getD i 0)⟩ : OutElem), r.2)
    (rows.flatMap (·.1), rows.any (·.2))
  else
    (pos.zipIdx.flatMap fun q =>
      let ox := q.1.1
      let oy := q.1.2
      if !inBounds ext [(dOX, ox), (dOY, oy)] then []
      else if o.isArgmax then [⟨oy, ox, 0, (p.classify oy ox).2⟩]
      else (List.range (o.l.t0 dOC)).flatMap fun j =>
        let oc := a.oc + j
        if ext.at' dOC ≤ oc then []
        else if o.isPool then [⟨oy, ox, oc, p.poolVal oy ox oc⟩]
        else if o.winograd then
          let m := fun el => match p.accs.find? (fun b => b.oc == a.oc && b.ox == a.ox && b.oy == a.oy && b.el == el) with
            | some b => of32 (tabGet (fun _ => 0) (s.core k).acc (b.num * 1024 + q.2 * 32 + j))
            | none => .zero
          (List.range 4).filterMap fun i =>
            let y := 2 * oy + i / 2
            let x := 2 * ox + i % 2
            if y < o.outH p.cellH ∧ x < o.outW p.cellW then some ⟨y, x, oc, of32 (to32 (winoOutput m (i / 2) (i % 2)))⟩ else none
        else [⟨oy, ox, oc, s.accVal k p a q.2 j oy⟩], false)

/-- The rows of some outputs. -/
def rowsIn (es : List OutElem) : List Nat := (es.map (·.y)).eraseDups

/-- Smallest and largest value of a row. -/
def rowRange (es : List OutElem) (r : Nat) : Dy × Dy :=
  match es.filter (fun e => e.y == r) with
  | [] => (.zero, .zero)
  | e :: rest => rest.foldl (fun (m : Dy × Dy) x => (if x.v.lt m.1 then x.v else m.1, if m.2.lt x.v then x.v else m.2)) (e.v, e.v)

/-- An output element's scratchpad bit address by the output strides (R206); ARGMAX's score map has the pitch of the class map
(R251). -/
def outBit (o : Oper) (e : OutElem) : Int :=
  let w : Int := (fmtBits o.q.out : Nat)
  if o.isArgmax then 8 * (o.d.aux2 : Int) + w * ((e.y * ru64 o.d.inW + e.x : Nat) : Int)
  else
    let ch := if o.isRowFn && (o.l.level dOC).isNone then o.l.outS dIC else o.l.outS dOC
    8 * (o.d.outBase : Int) + w * ((e.c : Int) * ch + (e.x : Int) * o.l.outS dOX + (e.y : Int) * o.l.outS dOY)

/-- The last element of a tensor row: a 4-bit code there clears the odd final nibble (R126). -/
def lastOfRow (o : Oper) (p : OpSt) (e : OutElem) : Bool :=
  if o.planar then e.x + 1 == (if o.isArgmax then o.inW p.cellW else o.outW p.cellW) else e.c + 1 == o.bound (if o.isRowFn then dIC else dOC)

/-- One code written to the scratchpad (addresses wrap at its end, log 28), and its bytes. -/
def writeCode (s : State) (n : Nat) (fmt : Nat) (bitAddr : Int) (code : Nat) (last : Bool) : State × List Byte :=
  let a := (bitAddr / 8 % (2 ^ 23 : Nat)).toNat
  if fmtBits fmt = 4 then
    let old := le (s.spadRd n a 1) 0 1
    let hi := decide (bitAddr / 4 % 2 = 1)
    let v := if hi then old % 16 + 16 * (code % 16) else code % 16 + (if last then 0 else old / 16 * 16)
    (s.spadWr n a (leBytes 1 v), leBytes 1 (code % 16))
  else
    let bs := leBytes (fmtBits fmt / 8) code
    (s.spadWr n a bs, bs)

/-- Bytes written for a cell enter the core's signature (R424). -/
def sign (s : State) (k : Nat) (bs : List Byte) : State :=
  let c := s.core k
  s.setCore k { c with crc := crc32cStep c.crc bs }

/-- The store byte of a trailing row: cell position by rows of the stripe (R158). -/
def trailAddr (p : OpSt) (r : Nat) : Nat := p.o.d.aux + p.rcd.pos * p.cellH + r

/-- SCALE_CLAMP for a derived exponent outside the range (R153). -/
def clampCode (s : State) (k : Nat) (p : OpSt) (c : Bool) : State := if c then s.postOp k 0x0201 p.desc else s

/-- The exponents of a first-pass row of tiles, derived from every value of it before a code is written (R151, R152, R155). -/
def deriveRows (s : State) (k : Nat) (p : OpSt) (a : AccTile) : State × OpSt :=
  let o := p.oper a.phase
  if p.rowExp.any (fun e => e.1 == a.oy * 2 + a.phase) then (s, p)
  else
    let es := (p.rowOf a).flatMap fun b => if b.el = 0 then (s.tileOut k p b).1 else []
    let (s1, rs) := (rowsIn es).foldl (fun (x : State × List (Nat × Int)) r =>
      let (lo, hi) := rowRange es r
      let (e, cl) := rowExponent o.q.out o.q.zout lo hi
      (x.1.clampCode k p cl, (2 ^ 20 + r * 2 + a.phase, e) :: x.2)) (s, [])
    (s1, { p with rowExp := (a.oy * 2 + a.phase, 0) :: rs ++ p.rowExp })

/-- The exponent with which a row's codes are written (R150). -/
def rowExpOf (s : State) (k : Nat) (p : OpSt) (ph r : Nat) : Int :=
  let o := p.oper ph
  if 11 ≤ o.q.out ∧ o.q.out ≤ 13 then 0
  else if p.firstPass ph then (match p.rowExp.find? (fun e => e.1 == 2 ^ 20 + r * 2 + ph) with | some e => e.2 | none => 0)
  else if o.q.mode = 2 then toSigned 8 (le (s.spadRd (k / 8) (trailAddr p r) 1) 0 1)
  else o.q.eout

/-- A trailing row ends (R158 to R160): the store takes the fresh exponent, and a miss is counted and posted. -/
def endTrailing (s : State) (k : Nat) (p : OpSt) (r : Nat) (lo hi : Dy) : State :=
  let (fresh, cl) := rowExponent p.o.q.out p.o.q.zout lo hi
  let used := s.rowExpOf k p 0 r
  let s1 := if p.firstPass 0 then s else s.clampCode k p cl
  let s2 := s1.spadWr (k / 8) (trailAddr p r % 2 ^ 23) (leBytes 1 (ofSigned 8 fresh))
  if !p.firstPass 0 && (decide (used < fresh) || (p.o.q.missLo != 0 && decide (fresh < used - p.o.q.missLo))) then
    let c := s2.core k
    let s3 := s2.setCore k { c with rowMiss := tabPut (fun _ => 0) c.rowMiss (r % 256) (satAdd 16 (tabGet (fun _ => 0) c.rowMiss (r % 256)) 1) }
    (s3.postOp k 0x0202 p.desc).mapRec (k / 8) p.recNo fun x => { x with miss := true }
  else s2

/-- The class of a pixel to the class map (R251). -/
def writeClasses (s : State) (k : Nat) (p : OpSt) (es : List OutElem) : State × OpSt :=
  es.foldl (fun (x : State × OpSt) e =>
    let (c, v) := p.classify e.y e.x
    let a := (p.o.d.outBase + e.y * ru64 p.o.d.inW + e.x) % 2 ^ 23
    let px : Pixel := ⟨e.x, e.y, c, to32 v⟩
    ((x.1.spadWr (k / 8) a (leBytes 1 c)).sign k (leBytes 1 c), { x.2 with pix := px :: x.2.pix })) (s, p)

/-- The codes of a tile's outputs written in order (R126, R127, R154, R219), with the row-scale vector and the count of saturated
elements. -/
def writeOut (s : State) (k : Nat) (p : OpSt) (ph : Nat) (es : List OutElem) : State × Nat :=
  let o := p.oper ph
  let rows := rowsIn es
  let scaled := !decide (11 ≤ o.q.out ∧ o.q.out ≤ 13) && o.q.mode != 0
  let exps := rows.map fun r => (r, s.rowExpOf k p ph r)
  let s1 := if scaled then exps.foldl (fun s x => s.spadWr (k / 8) ((o.d.rsOut + x.1) % 2 ^ 23) (leBytes 1 (ofSigned 8 x.2))) s else s
  es.foldl (fun (x : State × Nat) e =>
    let ex := match exps.find? (fun r => r.1 == e.y) with | some r => r.2 | none => 0
    let (c, sat) := encodeOut o.q.out o.q.zout ex e.v
    let (s2, bs) := x.1.writeCode (k / 8) o.q.out (outBit o e) c (lastOfRow o p e)
    (s2.sign k bs, x.2 + b01 sat)) (s1, 0)

/-- The tiles of an output: one, or the sixteen of a Winograd block (R186). -/
def outTiles (p : OpSt) (a : AccTile) : List AccTile :=
  if (p.oper a.phase).winograd then p.accs.filter fun b => b.oc == a.oc && b.ox == a.ox && b.oy == a.oy else [a]

/-- A tile may be drained: Complete with all of its outputs, and its row ready in first-pass mode (R155, R157, R172). -/
def drainable (p : OpSt) (a : AccTile) : Bool :=
  let ts := outTiles p a
  !(p.o.isPair && a.phase == 0) && ts.all p.complete &&
  (!(p.oper a.phase).winograd || (a.el == 0 && ts.length == 16)) && (!p.firstPass a.phase || p.rowReady a)

/-- One Complete tile, or one Winograd block's tiles, drained: its codes, its row's bookkeeping, its tiles Free (R171). -/
def drainTile (s : State) (k : Nat) (p : OpSt) (a : AccTile) : State × OpSt :=
  let o := p.oper a.phase
  let (s0, p0) := if p.firstPass a.phase then s.deriveRows k p a else (s, p)
  let (es, bad) := s0.tileOut k p0 a
  let s1 := if bad then s0.postOp k 0x0207 p.desc else s0
  let (s2, p2) := if o.isArgmax then s1.writeClasses k p0 es else (s1, p0)
  let maps := !o.isArgmax || o.d.aux2 != 0
  let (s3, sat) := if maps then s2.writeOut k p2 a.phase es else (s2, 0)
  let s4 := s3.saturated k p.desc sat
  let rows := rowsIn es
  let mergedRows := rows.foldl (fun (l : List (Nat × Dy × Dy)) r =>
    let (lo, hi) := rowRange es r
    match l.find? (fun e => e.1 == r) with
    | some (_, lo', hi') =>
      (r, if lo.lt lo' then lo else lo', if hi'.lt hi then hi else hi') :: l.filter (fun e => e.1 != r)
    | none => (r, lo, hi) :: l) p2.rows
  let gone := (outTiles p2 a).map (·.num)
  let n := p2.drainedOf a + gone.length
  let key := a.oy * 2 + a.phase
  let p3 := { p2 with
    rows := mergedRows, accs := p2.accs.filter (fun b => !gone.contains b.num)
    drained := (key, n) :: p2.drained.filter (fun e => e.1 != key)
    ins := p2.ins.filter fun e => !(o.onRowUnit && es.any fun x => e.1 / 2 ^ 60 == x.y && e.1 / 2 ^ 36 % 2 ^ 24 == x.x &&
      (o.isArgmax || e.1 / 2 ^ 12 % 2 ^ 24 == x.c)) }
  if a.phase = 0 ∧ o.q.mode = 2 ∧ maps ∧ !(11 ≤ o.q.out ∧ o.q.out ≤ 13) ∧ n = p3.rowTiles a.phase then
    (rows.foldl (fun s r => match p3.rows.find? (fun e => e.1 == r) with
      | some (_, lo, hi) => s.endTrailing k p3 r lo hi
      | none => s) s4, p3)
  else (s4, p3)

/-! ### The fused pair (R192) -/

/-- The P1 tiles of the next block are all Complete: the row unit can take its rows. -/
def blockReady (p : OpSt) : Bool :=
  let ts := p.accs.filter fun a => a.phase == 0 && a.oy / 32 == p.blocks
  let ext : Dims := p.ext
  let n := fun d e => cdiv e (max 1 (p.o.l.t0 d))
  p.o.isPair && !ts.isEmpty && ts.all p.complete &&
    ts.length == n dOY (min 32 (ext.at' dOY - 32 * p.blocks)) * n dOX (ext.at' dOX) * n dOC (ext.at' dOC)

/-- The row unit applies F to the block's rows, derives each row's exponent by first pass and writes the row to the intermediate
area in P2's activation format; P1's tiles are Free (R192). F needs whole rows, so the block's tiles are taken together. -/
def fuseBlock (s : State) (k : Nat) (p : OpSt) : State × OpSt :=
  match p.p2 with
  | none => (s, p)
  | some q =>
    let ts := p.accs.filter fun a => a.phase == 0 && a.oy / 32 == p.blocks
    let es := ts.flatMap fun a => (s.tileOut k p a).1
    let ext : Dims := p.ext
    let n1 := ext.at' dOC
    let fmt := q.q.act
    let rows := (List.range (min 32 (ext.at' dOY - 32 * p.blocks))).map fun i => 32 * p.blocks + i
    let (s1, exps) := rows.foldl (fun (x : State × List Int) r =>
      let xs := (List.range n1).map fun c => match es.find? (fun e => e.y == r && e.c == c) with
        | some e => to32 e.v | none => 0
      let f := rowUnit p.o.d.fn xs (s.fnGamma k p) (s.fnBeta k p) p.o.d.param0
      let vs := f.1.map of32
      let (lo, hi) := rowRange (vs.map fun v => ⟨0, 0, 0, v⟩) 0
      let (e, cl) := if 11 ≤ fmt ∧ fmt ≤ 13 then ((0 : Int), false) else rowExponent fmt q.q.zin lo hi
      let cs := vs.map fun v => encodeOut fmt q.q.zin e v
      let s1 := if f.2 then x.1.postOp k 0x0207 p.desc else x.1
      let s2 := (s1.clampCode k p cl).saturated k p.desc (cs.filter (·.2)).length
      let c := s2.core k
      let a := p.interAddr (s2.fahead k) + r % 32 * p.interRow
      (s2.setCore k { c with abuf := memWrite c.abuf a (packCodes fmt (cs.map (·.1))) }, x.2 ++ [e])) (s, [])
    (s1, { p with
      accs := p.accs.filter (fun a => !(a.phase == 0 && a.oy / 32 == p.blocks)), blocks := p.blocks + 1, interExp := exps })

/-- The drain path or the row unit reads the oldest tile that is ready, of the operator draining before the current one (R155,
R172). -/
def accDrain (s : State) (k : Nat) : State :=
  let try' := fun (p : OpSt) =>
    if blockReady p then some (s.fuseBlock k p)
    else match p.accs.find? (drainable p) with
      | some a => some (s.drainTile k p a)
      | none => none
  let c := s.core k
  match (match c.drain with | some p => try' p | none => none) with
  | some (s1, p1) => (s1.setDrain k p1).setF (cr k) CR_WALK_ACC_held
      (match (s1.core k).cur with | some q => q.accs.length | none => p1.accs.length)
  | none =>
    match (match c.cur with | some p => try' p | none => none) with
    | some (s1, p1) => (s1.setCur k p1).setF (cr k) CR_WALK_ACC_held p1.accs.length
    | none => s

/-! ### Completion -/

/-- Pixels in the order of R252. -/
def sortPixels (ps : List Pixel) : List Pixel :=
  let before := fun (a b : Pixel) => decide (a.y * 2 ^ 16 + a.x < b.y * 2 ^ 16 + b.x)
  ps.foldl (fun acc x => acc.takeWhile (fun y => before y x) ++ x :: acc.dropWhile (fun y => before y x)) []

/-- The 256-byte cell summary (R253, R254). -/
def summaryOf (o : Oper) (pix : List Pixel) : List Byte :=
  let ps := sortPixels pix
  let entry := fun j =>
    let qs := ps.filter fun x => x.cls == j
    let best := qs.foldl (fun (b : Option Pixel) x => match b with
      | none => some x
      | some y => if (of32 y.score).lt (of32 x.score) then some x else b) none
    let sum := qs.foldl (fun a x => round64 (a.add (of32 x.score))) Dy.zero
    match best with
    | some b => leBytes 4 qs.length ++ leBytes 4 b.score ++ leBytes 2 b.x ++ leBytes 2 b.y ++ leBytes 4 (to32 sum)
    | none => zeros 16
  leBytes 4 ps.length ++ leBytes 4 (ps.filter fun x => decide (15 ≤ x.cls)).length ++ leBytes 1 o.d.ncls
    ++ leBytes 1 (o.d.param1 % 256) ++ zeros 6 ++ (List.range 15).flatMap entry

/-- Every output of an operator is written, or it ended early and no ready tile is left (R177, R226). -/
def finished (p : OpSt) : Bool :=
  p.walked && p.arr.isEmpty && (if p.early then !p.accs.any (drainable p) && !blockReady p else p.accs.isEmpty)

/-- The draining operator completes (R177, R181, R226, R254): the summary is written, tiles left by an early end are Free and
post_sem is posted. -/
def opComplete (s : State) (k : Nat) : State :=
  let c := s.core k
  match c.drain with
  | none => s
  | some p =>
    if !finished p then s
    else
      let s2 :=
        if p.o.isArgmax && p.o.summary && !p.early then
          let bs := summaryOf p.o p.pix
          (s.spadWr (k / 8) (p.o.d.aux % 2 ^ 23) bs).sign k bs
        else s
      let s3 := ((s2.setCore k { s2.core k with drain := none }).setF (cr k) CR_WALK_ACC_held
        (match c.cur with | some q => q.accs.length | none => 0)).shiftOp k
      match p.post with
      | some x => s3.semPost (k / 8) x
      | none => s3

end State

/-- ACC_TILE_DRAIN (R155). -/
def execAccTileDrain (k : Fin 128) (s : State) : Host.Outcome State Fault Refusal := s.eng (s.accDrain k)

/-- OP_COMPLETE (R177). -/
def execOpComplete (k : Fin 128) (s : State) : Host.Outcome State Fault Refusal := s.eng (s.opComplete k)

end Sys2Proof.Machine
end

