-- ==== Sys2Proof/Machine/Sequencer.lean ====
section
/-! DEFINITION. The sequencer as commands (R175 to R181, R213, R214, R222, R238, R263, R423, R424, R604): an instruction of the stage
program issues, by itself while run is 1 or through a step while run is 0; the registers that software writes (R197, R200,
R201). -/

namespace Sys2Proof.Machine

/-- The record of a core that holds none: a core that software runs outside a job. -/
def CellRec.none : CellRec :=
  { seq := 0, stream := 0, plan := 0, pos := 0, x0 := 0, width := 0, valid := 0, left := 0, right := 0, gate := 0
    flagged := false, firstPass := false, bank := 0, set := 0, cell := 0, kind := 0, buf := 0, geom := 0, store := 0
    bufWord := 0, copied := false, passed := [], miss := false, sigs := [] }

/-- Slots of an operand at the issue of an operator (R323). -/
def Slots.none : Slots := ⟨[], [], [], Option.none⟩

/-- Stages of a plan to which a cell's copy runs: none for a primary (R421, R423, R428). -/
def copyDepth (blk : PlanBlock) (r : CellRec) : Option Nat :=
  match blk.plans[r.plan]? with
  | none => none
  | some q =>
    if r.kind = 4 then some q.spotDepth
    else if r.kind = 1 ∨ r.kind = 3 then
      match q.cells[r.cell]? with | some c => some (q.depth.getD c.piste 0) | none => none
    else none

namespace State

/-- The instruction at CR_SEQ_STAT.pc. -/
def instrAt (s : State) (k : Nat) : Nat := tabGet (fun _ => 0) (s.core k).imem (s.getF (cr k) CR_SEQ_STAT_pc)

/-- The cell record that a core holds (R268). -/
def heldRec (s : State) (k : Nat) : CellRec := ((s.rink (k / 8)).recs[(s.core k).ends]?).getD .none

/-- Units of a core at work, by R200's bits: array, drain path, row unit, Winograd engine, core Chairlift. -/
def busyBits (s : State) (k : Nat) : Nat :=
  let c := s.core k
  let on := fun (o : Option OpSt) (f : OpSt → Bool) => match o with | some p => f p | none => false
  b01 (on c.cur (fun p => !p.o.onRowUnit) || on c.drain (fun p => !p.arr.isEmpty)) + 2 * b01 c.drain.isSome +
    4 * b01 (on c.cur (fun p => p.o.onRowUnit || p.o.isPair) || on c.drain (fun p => p.o.onRowUnit || p.o.isPair)) +
    8 * b01 (on c.cur (fun p => p.o.winograd) || on c.drain (fun p => p.o.winograd)) + 16 * b01 (!(s.lift (16 + k)).isEmpty)

/-- Every unit of a core is idle. -/
def unitsIdle (s : State) (k : Nat) : Bool := s.busyBits k == 0

/-- The stage that a core runs (R421). -/
def stageOf (s : State) (k : Nat) : Nat := stageNo (s.groupNo (k / 8)) (k % 8)

/-- The core's operators issue empty for a record: its copy does not run this stage (R423). -/
def emptied (s : State) (k : Nat) (r : CellRec) : Bool :=
  match (s.rink (k / 8)).job with
  | some j =>
    match s.job j with
    | some x => match copyDepth x.blk r with | some d => decide (d ≤ s.stageOf k) | none => false
    | none => false
  | none => false

/-- What an instruction waits for beside its semaphore (R176, R179). A reserved opcode never issues. -/
def ready (s : State) (k w : Nat) : Bool :=
  let c := s.core k
  match iOp w with
  | 1 =>
    c.cur.isNone && (match c.drain with
      | some p => !(p.o.onRowUnit && (parseOper (s.spadReader (k / 8)) (iArg w % 2 ^ 17)).onRowUnit)
      | none => true)
  | 3 => s.busyBits k &&& iArg w % 32 == 0
  | 5 | 6 => s.unitsIdle k
  | o => decide (o ≤ 4)

/-- The next instruction. -/
def setPc (s : State) (k pc : Nat) : State := s.setF (cr k) CR_SEQ_STAT_pc pc

/-- Both loop counters 0 (R176). -/
def clearLoops (s : State) (k : Nat) : State := s.setCore k { s.core k with loop0 := 0, loop1 := 0 }

/-- The post of an instruction at issue (R177). -/
def postNow (s : State) (k w : Nat) : State := if iPostEn w then s.semPost (k / 8) (iPostSem w) else s

/-- A sample that is due is taken from the instruction that issues (R604). -/
def sample (s : State) (k w pc : Nat) : State :=
  if s.cnt.samplePend.contains k then
    let d := if iOp w = 1 then iArg w % 2 ^ 17
      else if s.flag (cr k) CR_OP_CUR_valid then s.getF (cr k) CR_OP_CUR_desc else 0
    let s1 := ((s.setF (cr k) PC_SAMPLE_valid 1).setF (cr k) PC_SAMPLE_pc pc).setF (cr k) PC_SAMPLE_desc d
    { s1 with cnt := { s1.cnt with samplePend := s1.cnt.samplePend.filter (· != k) } }
  else s

/-! ### OP -/

/-- Actual extents by dimension (R213): 1 without a level. -/
def extents (s : State) (k : Nat) (o : Oper) (w h : Nat) : List Nat :=
  (List.range 6).map fun d => match o.l.level d with
    | none => 1
    | some l => match l.rtSrc with
      | 0 => l.extent
      | 3 => le (s.spadRd (k / 8) l.rtAddr 4) 0 4 % 2 ^ 24
      | src => o.cellExtent src w h

/-- The extent words of an operator read into CR_WALK_EXT (R214, R227). -/
def readExtents (s : State) (k : Nat) (o : Oper) : State :=
  o.l.levels.foldl (fun s l => if l.rtSrc = 3 then s.setF (cr k) CR_WALK_EXT_extent (le (s.spadRd (k / 8) l.rtAddr 4) 0 4 % 2 ^ 24)
    else s) s

/-- An actual extent exceeds a non-zero bound (R214). -/
def beyondBound (o : Oper) (ext : List Nat) : Bool :=
  o.l.levels.any fun l => l.rtSrc != 0 && l.extent != 0 && decide (l.extent < Dims.at' ext l.dim)

/-- An actual extent of some level is 0. -/
def emptyExtent (o : Oper) (ext : List Nat) : Bool := o.l.levels.any fun l => Dims.at' ext l.dim == 0

/-- The output size of R237 is 0 in either dimension. -/
def emptyOutput (o : Oper) (w h : Nat) : Bool := o.planar && (o.outW w == 0 || o.outH h == 0)

/-- The code of the tile-shape check at issue for the products of an operator (R222). -/
def issueCheck (o : Oper) (p2 : Option Oper) (f w h : Nat) : Nat :=
  match p2 with
  | none => shapeCheck o f w h 0 false
  | some q =>
    let area := pairArea o.q.out (o.bound dOC)
    let c := shapeCheck o f w h area true
    if c = 0 then shapeCheck q f w h area true else c

/-- CR_WALK registers at the issue of an operator (R227). -/
def walkStart (s : State) (k lim : Nat) : State :=
  let p := cr k
  ((((s.setF p CR_WALK_CNT_t0_issued 0).setF p CR_WALK_SKIP_skipped 0).setF p CR_WALK_ACC_limit lim).setF p CR_WALK_ACC_peak 0).setF p
    CR_WALK_ACC_held 0

/-- An OP issues: empty for a copy beyond its depth (R423), empty by its output size (R238), refused by the tile-shape check (R222,
R181), empty or ended by its extents (R214), or it starts. -/
def opIssue (s : State) (k w pc : Nat) : State :=
  let n := k / 8
  let desc := iArg w % 2 ^ 17
  let rd := s.spadReader n
  let rcd := s.heldRec k
  let recNo := (s.core k).ends
  let cw := rcd.width
  let ch := geomH rcd.geom
  let o := parseOper rd desc
  let p2 := if o.isPair then some (parseOper rd (o.d.aux % 2 ^ 17)) else none
  let code := issueCheck o p2 (s.fahead k) cw ch
  let next := s.setPc k (pc + 1)
  let started := (next.countEvt (cr k) 0x12 1).walkStart k (if o.isPair then 64 else o.l.accLimit)
  if s.emptied k rcd then started.postNow k w
  else if emptyOutput o cw ch then (started.postOp k 0x0108 desc).postNow k w
  else if code ≠ 0 then ((next.postOp k code desc).flagRec n recNo).postNow k w
  else
    let ext := s.extents k o cw ch
    let ext2 := match p2 with | some q => s.extents k q cw ch | none => []
    let s1 := (match p2 with | some q => (started.readExtents k o).readExtents k q | none => started.readExtents k o).resetSlots k
    let none2 := match p2 with | some q => emptyExtent q ext2 | none => false
    let over2 := match p2 with | some q => beyondBound q ext2 | none => false
    if emptyExtent o ext || none2 then (s1.postOp k 0x0108 desc).postNow k w
    else
      let op : OpSt :=
        { desc := desc, o := o, p2 := p2, recNo := recNo, rcd := rcd, ext := ext, ext2 := ext2
          post := if iPostEn w then some (iPostSem w) else none
          regs := readBank rd o.q, regs2 := match p2 with | some q => readBank rd q.q | none => .empty
          taken := [], visit := none, step := 0, walked := false, early := false
          act1 := .none, wt1 := .none, act2 := .none, wt2 := .none, accs := [], arr := [], ins := [], pix := [], rows := []
          rowExp := [], drained := [], blocks := 0, interExp := [], unicast := false }
      if beyondBound o ext || over2 then ((s1.setCur k op).postOp k 0x0101 desc).endEarly k op
      else (s1.setCur k op).showOps k

/-! ### The other instructions -/

/-- LOOP (R176). -/
def loopIssue (s : State) (k w pc : Nat) : State :=
  let c := s.core k
  let v := if loopCtr w = 0 then c.loop0 else c.loop1
  let v' := if v = 0 then loopCount w else v - 1
  let s1 := s.setCore k (if loopCtr w = 0 then { c with loop0 := v' } else { c with loop1 := v' })
  s1.setPc k (if v' = 0 then pc + 1 else pc + 256 - loopDist w)

/-- Every core of the group has passed CELL_END for record i: it leaves the queue in group 0 (R268), and in the last group its
completion is reported to Slalom (R296, R424). -/
def recPassed (s : State) (n i : Nat) : State :=
  let r := s.rink n
  match r.recs[i]? with
  | none => s
  | some c =>
    if (List.range 8).all fun x => !(s.group n).has x || c.passed.contains x then
      let s1 := if s.groupNo n = 0 then s.setRink n { r with left := max r.left (i + 1) } else s
      if (s.prog n).nGroups ≤ s.groupNo n + 1 then
        let s2 := s1.countEvt (rk n) 0x10 1
        match r.job with
        | some j => match s2.job j with
          | some x => if x.stopping then s2 else s2.setJob j (some { x with reports := x.reports ++ [(n, i, c)] })
          | none => s2
        | none => s2
      else s1
    else s

/-- Rink n goes to DRAIN once every core of the group has stopped under R263 (R264). -/
def toDrain (s : State) (n : Nat) : State :=
  if s.rkState n = 2 ∧ ((List.range 8).all fun c => !(s.group n).has c || decide (s.roundCells n ≤ (s.core (8 * n + c)).ends)) then
    s.setF (rk n) RK_STATE_state 3
  else s

/-- CELL_END (R176, R263, R268, R424). -/
def cellEndIssue (s : State) (k : Nat) : State :=
  let n := k / 8
  let c := s.core k
  let i := c.ends
  let sig := c.crc ^^^ 0xFFFFFFFF
  let st := s.stageOf k
  let ran := !s.emptied k (s.heldRec k)
  let s1 := s.mapRec n i fun r => { r with
    passed := (k % 8) :: r.passed, sigs := if ran then r.sigs ++ [(st, sig)] else r.sigs }
  let s2 := s1.setCore k { c with ends := i + 1, crc := 0xFFFFFFFF, loop0 := 0, loop1 := 0 }
  let s3 := (s2.setPc k (s2.getF (cr k) CR_SEQ_CTRL_start_pc)).raise (cr k) 1
  let s4 := if k % 8 = 0 ∧ (s3.prog n).nGroups ≤ s3.groupNo n + 1 then s3.wrapF (rk n) RK_STATE_cells else s3
  let s5 := if i + 1 = s4.roundCells n then s4.setF (cr k) CR_SEQ_CTRL_run 0 else s4
  (s5.recPassed n i).toDrain n

/-- HALT (R176). -/
def haltIssue (s : State) (k pc : Nat) : State :=
  ((((s.clearLoops k).setPc k (pc + 1)).setF (cr k) CR_SEQ_CTRL_run 0).setF (cr k) CR_SEQ_STAT_halted 1).raise (cr k) 0

/-- The instruction's effect once its wait is met. -/
def instrEffect (s : State) (k w pc : Nat) : State :=
  if iOp w = 1 then s.opIssue k w pc
  else
    let s1 := s.countEvt (cr k) 0x12 1
    let s2 := match iOp w with
      | 4 => s1.loopIssue k w pc
      | 5 => s1.cellEndIssue k
      | 6 => s1.haltIssue k pc
      | _ => s1.setPc k (pc + 1)
    s2.postNow k w

/-- Core 0 has waited on in_full_sem: the cell is no longer withdrawn (R325). -/
def noteTaken (s : State) (k x : Nat) : State :=
  let n := k / 8
  if k % 8 = 0 ∧ s.groupNo n = 0 ∧ (s.prog n).fullSem = x then
    let r := s.rink n
    s.setRink n { r with taken := r.taken + 1 }
  else s

/-- The instruction at pc issues if it can (R177 to R179). -/
def issue (s : State) (k : Nat) : State :=
  let w := s.instrAt k
  let pc := s.getF (cr k) CR_SEQ_STAT_pc
  if !s.ready k w then s
  else if iWaitEn w then
    match s.semWait (k / 8) (iWaitSem w) with
    | .no => s
    | .range t => t
    | .met t => ((t.noteTaken k (iWaitSem w)).sample k w pc).instrEffect k w pc
  else (s.sample k w pc).instrEffect k w pc

/-- The sequencer, running, issues an instruction of this opcode if it stands at pc. -/
def seqIssue (s : State) (k opc : Nat) : State :=
  if s.flag (cr k) CR_SEQ_CTRL_run && iOp (s.instrAt k) == opc then s.issue k else s

/-! ### Registers -/

/-- CR_CNT registers and the row-miss table zeroed (R200, R202). -/
def clearCounts (s : State) (k : Nat) : State :=
  let s1 := [0x60, 0x64, 0x68].foldl (fun s o => s.setWord (cr k + o) 0) s
  s1.setCore k { s1.core k with rowMiss := [] }

/-- A write to CR_SEQ_CTRL (R176, R200, R640): clr_cnt, then run and step; a write that would start work on a page that is not
enabled is refused. -/
def seqCtrlWrite (a : Agent) (k v : Nat) (s : State) : State :=
  let was := s.flag (cr k) CR_SEQ_CTRL_run
  if (bit v 0 && !was || bit v 1 && !was) && !s.enabled (cr k) then s.refuse a (cr k) 0x40
  else
    let s1 := if bit v 2 then s.clearCounts k else s
    let s2 := plainWrite a (cr k) 0x40 v s1
    let s3 := if bit v 0 then (s2.clearLoops k).setF (cr k) CR_SEQ_STAT_halted 0 else s2
    let s4 := if bit v 0 && !was then s3.setPc k (s3.getF (cr k) CR_SEQ_CTRL_start_pc) else s3
    if bit v 1 && !bit v 0 then s4.issue k else s4

/-- The length of a table of CR_DATA (R201); a reserved table has none. -/
def crTableLen (t : Nat) : Nat := match t with | 0 | 1 | 3 | 5 => 256 | 2 => 4096 | 4 => 64 | _ => 4096

/-- CR_IDX after an access to CR_DATA. -/
def crIdxNext (s : State) (k : Nat) : State :=
  if s.flag (cr k) CR_IDX_auto_inc then
    s.setF (cr k) CR_IDX_index ((s.getF (cr k) CR_IDX_index + 1) % crTableLen (s.getF (cr k) CR_IDX_table))
  else s

/-- A write to CR_DATA (R201). -/
def crDataWrite (a : Agent) (k v : Nat) (s : State) : State :=
  let t := s.getF (cr k) CR_IDX_table
  let i := s.getF (cr k) CR_IDX_index
  if 2 ≤ t ∨ 256 ≤ i ∨ s.flag (cr k) CR_SEQ_CTRL_run then s.refuse a (cr k) 0x7C
  else
    let c := s.core k
    let w := tabGet (fun _ => 0) c.imem i
    let w' := if t = 0 then setBits w 31 0 v else setBits w 63 32 v
    (s.setCore k { c with imem := tabPut (fun _ => 0) c.imem i w' }).crIdxNext k

/-- The entry that CR_DATA shows (R201). -/
def crData (s : State) (k : Nat) : Nat :=
  let c := s.core k
  let i := s.getF (cr k) CR_IDX_index
  match s.getF (cr k) CR_IDX_table with
  | 0 => bits (tabGet (fun _ => 0) c.imem i) 31 0
  | 1 => bits (tabGet (fun _ => 0) c.imem i) 63 32
  | 2 => c.active.scales.getD i 0
  | 3 => c.active.cb.getD i 0
  | 4 => c.active.priv.getD i 0
  | 5 => tabGet (fun _ => 0) c.rowMiss i
  | _ => 0

/-- A write to CR_RES_INJECT (R197). -/
def resInjectWrite (a : Agent) (k v : Nat) (s : State) : State :=
  let s1 := plainWrite a (cr k) 0x70 v s
  if bit v 31 then s1.setF (cr k) CR_RES_INJECT_arm 1 else s1

end State

/-! ### The commands -/

/-- SEQ_RUN (R200): a write of CR_SEQ_CTRL with run = 1. -/
def execSeqRun (a : Agent) (k : Fin 128) (v : Word) (s : State) : Host.Outcome State Fault Refusal :=
  (s.guardedWrite a (cr k) 0x40 (setBit v.toNat 0) (State.seqCtrlWrite a k)).done

/-- SEQ_STEP (R200): a write of CR_SEQ_CTRL with step = 1. -/
def execSeqStep (a : Agent) (k : Fin 128) (v : Word) (s : State) : Host.Outcome State Fault Refusal :=
  (s.guardedWrite a (cr k) 0x40 (setBit v.toNat 1) (State.seqCtrlWrite a k)).done

/-- CLR_CNT (R202): a write of CR_SEQ_CTRL with clr_cnt = 1. -/
def execClrCnt (a : Agent) (k : Fin 128) (v : Word) (s : State) : Host.Outcome State Fault Refusal :=
  (s.guardedWrite a (cr k) 0x40 (setBit v.toNat 2) (State.seqCtrlWrite a k)).done

/-- CR_DATA_WRITE (R201). -/
def execCrDataWrite (a : Agent) (k : Fin 128) (v : Word) (s : State) : Host.Outcome State Fault Refusal :=
  (s.guardedWrite a (cr k) 0x7C v.toNat (State.crDataWrite a k)).done

/-- RES_INJECT (R197): a write of CR_RES_INJECT with arm = 1. -/
def execResInject (a : Agent) (k : Fin 128) (v : Word) (s : State) : Host.Outcome State Fault Refusal :=
  (s.guardedWrite a (cr k) 0x70 (setBit v.toNat 31) (State.resInjectWrite a k)).done

/-- NOP (R176). -/
def execNop (k : Fin 128) (s : State) : Host.Outcome State Fault Refusal := s.eng (s.seqIssue k 0)
/-- OP (R179). -/
def execOp (k : Fin 128) (s : State) : Host.Outcome State Fault Refusal := s.eng (s.seqIssue k 1)
/-- SEM (R177). -/
def execSem (k : Fin 128) (s : State) : Host.Outcome State Fault Refusal := s.eng (s.seqIssue k 2)
/-- FENCE (R176). -/
def execFence (k : Fin 128) (s : State) : Host.Outcome State Fault Refusal := s.eng (s.seqIssue k 3)
/-- LOOP (R176). -/
def execLoop (k : Fin 128) (s : State) : Host.Outcome State Fault Refusal := s.eng (s.seqIssue k 4)
/-- CELL_END (R176). -/
def execCellEnd (k : Fin 128) (s : State) : Host.Outcome State Fault Refusal := s.eng (s.seqIssue k 5)
/-- HALT (R176). -/
def execHalt (k : Fin 128) (s : State) : Host.Outcome State Fault Refusal := s.eng (s.seqIssue k 6)

end Sys2Proof.Machine
end

