-- ==== Sys2Proof/Machine/Ports.lean ====
section
/-! DEFINITION. A Tuzer port as its packets use it (R521 to R529): the route to a node, packets in their classes with credits,
and the flits that wait for their acks. One packet takes flits of its own, its last one filled with zeros (log 30). -/

namespace Sys2Proof.Machine

/-- A port at rest; the credits that a link-up grants (R525). -/
def TzPortSt.idle : TzPortSt :=
  { txSeq := 0, rxSeq := 0, hunting := false, unacked := [], txq := [], credits := [256, 128, 64], stream := [], rxq := []
    writes := [], lastGood := 0, since := 0, nakd := false, lastAck := 0 }

/-- A packet (R526). -/
def tzPacket (ty dst src cls tag addr : Nat) (data : List Byte) : List Byte :=
  leBytes 1 ty ++ leBytes 1 (dst % 4 + src % 4 * 4 + cls % 4 * 16) ++ leBytes 2 data.length ++ leBytes 4 tag ++ leBytes 8 addr ++
    data

/-- Class of a packet, and the credits it takes (R525). -/
def pktClass (p : List Byte) : Nat := bits (le p 1 1) 5 4
def pktCost (p : List Byte) : Nat := cdiv p.length 64

/-- Data flits that a packet takes. -/
def pktFlits (p : List Byte) : Nat := cdiv p.length 224

namespace State

/-- Port p, and the port replaced. -/
def tz (s : State) (p : Nat) : TzPortSt := tabGet (fun _ => TzPortSt.idle) s.tuzer p
def setTz (s : State) (p : Nat) (x : TzPortSt) : State := { s with tuzer := tabPut (fun _ => TzPortSt.idle) s.tuzer p x }

/-- This device's node (R521). -/
def node (s : State) : Nat := s.getF tzCommonPage TZ_CFG_node

/-- The port that reaches a node (R522, R534). -/
def routeTo (s : State) (n : Nat) : Option Nat :=
  let p := bits (s.getF tzCommonPage TZ_NODES_route) (2 * n + 1) (2 * n)
  if p < 3 then some p else none

/-- The oldest packet of a port that holds its credits leaves, while fewer than 64 data flits wait for acks (R524, R525); classes
go in order of rank (R345). -/
def tzSendOne (s : State) (p : Nat) : State :=
  let x := s.tz p
  let ok := fun (k : List Byte) => decide (pktCost k ≤ x.credits.getD (pktClass k) 0) && decide (x.unacked.length + pktFlits k ≤ 64)
  let first := fun c => x.txq.find? fun k => pktClass k == c
  match ([0, 1, 2].filterMap first).find? ok with
  | none => s
  | some k =>
    let c := pktClass k
    let n := pktFlits k
    let fl := (List.range n).map fun i => (⟨(x.txSeq + i) % 4096, sub k (224 * i) (min 224 (k.length - 224 * i)), 0⟩ : TzFlit)
    let s1 := s.setTz p { x with
      lastAck := if x.unacked.isEmpty then s.time.elapsed else x.lastAck
      txSeq := (x.txSeq + n) % 4096, unacked := x.unacked ++ fl, txq := x.txq.erase k
      credits := setAt x.credits c (x.credits.getD c 0 - pktCost k) }
    (s1.countBw (26 + p) (256 * n)).countEvt (tzPort p) 0x11 (256 * n)

/-- Every packet that can leave a port leaves. -/
def tzFlush (s : State) (p : Nat) : State := (List.range (s.tz p).txq.length).foldl (fun s _ => s.tzSendOne p) s

/-- A packet for another node: queued at the port that reaches it, and gone where none does. -/
def tzSend (s : State) (dst : Nat) (pkt : List Byte) : State :=
  match s.routeTo dst with
  | none => s
  | some p => (s.setTz p { s.tz p with txq := (s.tz p).txq ++ [pkt] }).tzFlush p

/-- A rink's halo packets that have not been acknowledged. -/
def haloLeaving (s : State) (n : Nat) : Bool :=
  (List.range 3).any fun p =>
    let mine := fun (k : List Byte) => le k 0 1 == 3 && le k 4 1 % 16 == n
    (s.tz p).txq.any mine || (s.tz p).unacked.any fun f => mine f.pkt

end State

end Sys2Proof.Machine
end

