-- ==== Sys2Proof/Machine/Rinks.lean ====
section
/-! DEFINITION. The rink units as commands (R263 to R279, R327): groups load and drain, the input copy, the carry mover and the halo
unit. -/

namespace Sys2Proof.Machine

/-- A halo entry's place for cell k of the round: the element of a plane, row and margin column, as a byte address (R272, R273). -/
def haloAddr (e : HaloEnt) (k p r c : Nat) : Nat := e.area + k % e.nbuf * e.bstride + p * e.pc + r * e.pr + c * e.b

/-- The bytes of h columns from a margin column, in the order plane, row, column (R273). -/
def haloCols (rd : Reader) (e : HaloEnt) (k c0 : Nat) : List Byte :=
  (List.range e.planes).flatMap fun p => (List.range e.rows).flatMap fun r => rd (haloAddr e k p r c0) (e.h * e.b)

/-- The first margin column of a side. -/
def marginCol (e : HaloEnt) (right : Bool) : Nat := if right then e.width + e.h else 0

/-- The tag of a halo send: seq, stream, entry and boundary column (R273); its layout is the model's (log 31). -/
def haloTag (seq stream entry col : Nat) : List Byte :=
  leBytes 4 seq ++ leBytes 1 stream ++ leBytes 1 0 ++ leBytes 1 entry ++ leBytes 1 1 ++ leBytes 2 col ++ zeros 54

/-- Bytes of a receive slot (R272). -/
def haloSlot (e : HaloEnt) : Nat := ru64 (e.rows * e.planes * e.h * e.b) + 64

/-- A neighbour byte of a cell record (R267): present, node, rink. -/
def nbr (r : CellRec) (right : Bool) : Bool × Nat × Nat :=
  let v := if right then r.right else r.left
  (bit v 7, bits v 5 4, bits v 3 0)

/-- The halo unit's state at an entry at the start of a job. -/
def HaloPos.start : HaloPos := ⟨0, false, false, false, false, false, 2, 2⟩

/-- Cells of a set that belong to physical rink n: its share of the plan without those that are lost before release, and the re-runs
and spot copies granted to it. -/
def setCells (x : JobSt) (t : SetSt) (n : Nat) : Nat :=
  match x.blk.plans[t.plan]? with
  | none => 0
  | some q =>
    let mine := t.cells.filter fun c => match q.cells[c.cell]? with
      | some e => State.physRink t.bind e.rink == n && (c.released || !(c.lost || c.gone))
      | none => false
    mine.length + tabGet (fun _ => 0) t.reruns n

namespace State

/-! ### Records and rounds -/

/-- The first record of the queue opens its set at a rink that works on none; a rink that waits loads group 0 (R264). -/
def takeSet (s : State) (n : Nat) : State :=
  let r := s.rink n
  match r.recs, r.set with
  | h :: _, none =>
    let total := match r.job with
      | some j => match s.job j with
        | some x => match x.sets.find? (fun t => t.num == h.set) with | some t => setCells x t n | none => r.recs.length
        | none => r.recs.length
      | none => r.recs.length
    let s1 := (s.setRink n { r with set := some h.set, before := 0, total := total }).setF (rk n) RK_STATE_cells 0
    if s1.rkState n = 4 then (s1.setF (rk n) RK_STATE_state 1).setF (rk n) RK_STATE_group 0 else s1
  | _, _ => s

/-- A record enters a rink's queue (R268). -/
def pushRec (s : State) (n : Nat) (c : CellRec) : State :=
  let r := s.rink n
  (s.setRink n { r with recs := r.recs ++ [c] }).takeSet n

/-- Cores that have every cell of the round stop, after the round has become shorter (R263, R327). -/
def settleRound (s : State) (n : Nat) : State :=
  if s.rkState n = 2 ∧ (s.rink n).set.isSome then
    ((List.range 8).foldl (fun s c =>
      let k := 8 * n + c
      if (s.group n).has c && decide (s.roundCells n ≤ (s.core k).ends) then s.setF (cr k) CR_SEQ_CTRL_run 0 else s) s).toDrain n
  else s

/-- The number of a rink's cells in its set changes by one less: a cell of it will not be released. -/
def fewerCells (s : State) (n set : Nat) : State :=
  let r := s.rink n
  if r.set = some set then (s.setRink n { r with total := r.total - 1 }).settleRound n else s

/-! ### LOAD and DRAIN -/

/-- The semaphores of the group's table (R257, R265). -/
def loadSems (s : State) (n : Nat) (g : Group) : State :=
  (List.range 64).foldl (fun s x =>
    (s.setF (rk n) RK_SEMn_limit (le (s.spadRd n (g.semTbl + 64 + x) 1) 0 1) x).setF (rk n) RK_SEMn_count
      (le (s.spadRd n (g.semTbl + x) 1) 0 1) x) s

/-- A core of the group starts (R264, R265): its program, unless it is resident, its cell count at 0 and run set. -/
def startCore (s : State) (n c : Nat) (g : Group) (fresh : Bool) : State :=
  let k := 8 * n + c
  match g.stages[c]? with
  | none => s
  | some r =>
    let x := s.core k
    let ws := Machine.stageWords (s.spadReader n) r
    let im := if fresh then ws.zipIdx.foldl (fun t w => tabPut (fun _ => 0) t w.2 w.1) x.imem else x.imem
    let s1 := s.setCore k { x with imem := im, loop0 := 0, loop1 := 0, ends := 0, crc := 0xFFFFFFFF }
    (((s1.setF (cr k) CR_SEQ_CTRL_start_pc r.start).setF (cr k) CR_SEQ_STAT_pc r.start).setF (cr k) CR_SEQ_STAT_halted 0).setF (cr k)
      CR_SEQ_CTRL_run 1

/-- Programs and semaphores are loaded and the rink runs (R264, R265). -/
def groupLoaded (s : State) (n : Nat) : State :=
  if s.rkState n ≠ 1 then s
  else
    let g := s.group n
    let gn := s.groupNo n
    let r := s.rink n
    let fresh := r.resident != some gn
    let hal := (List.range 8).map fun i =>
      let p := r.halo.getD i .start
      { HaloPos.start with creditL := p.creditL, creditR := p.creditR }
    let r1 := { r with
      resident := some gn, halo := hal, carry := List.replicate 8 0
      recs := r.recs.map (fun c => { c with passed := [] })
      copies := if gn = 0 then 0 else r.copies, taken := if gn = 0 then 0 else r.taken }
    let s1 := (s.setRink n r1).loadSems n g
    let s2 := (List.range 8).foldl (fun s c => if g.has c then s.startCore n c g fresh else s) s1
    (s2.setF (rk n) RK_STATE_state 2).raise (rk n) 0

/-- The carry mover and the halo unit have nothing to do: no cell begun, and no wait that can be met. -/
def moversIdle (s : State) (n : Nat) : Bool :=
  let r := s.rink n
  let g := s.group n
  let rc := s.roundCells n
  (g.carries.zipIdx.all fun e => decide (rc ≤ r.carry.getD e.2 0) || s.semCount n e.1.inSem == 0) &&
  (g.halos.zipIdx.all fun e =>
    let p := r.halo.getD e.2 .start
    !p.begun && (decide (rc ≤ p.done) || s.semCount n e.1.inSem == 0))

/-- Every unit of a rink is idle and its halo columns are delivered (R264). -/
def rinkIdle (s : State) (n : Nat) : Bool :=
  ((List.range 8).all fun c => s.unitsIdle (8 * n + c)) && (s.lift n).isEmpty && s.moversIdle n && !s.haloLeaving n &&
    (List.range 16).all fun m => (s.rink m).inbound.all fun h => !(h.node == s.node && h.src == n)

/-- DRAIN ends (R264): the next group, the next round, or the stripe is done. -/
def drainDone (s : State) (n : Nat) : State :=
  if s.rkState n ≠ 3 ∨ !s.rinkIdle n then s
  else
    let g := s.groupNo n
    let load := fun (s : State) g => (s.setF (rk n) RK_STATE_group g).setF (rk n) RK_STATE_state 1
    if g + 1 < (s.prog n).nGroups then load s (g + 1)
    else
      let r := s.rink n
      let rc := s.roundCells n
      let s1 := s.setRink n { r with recs := r.recs.drop rc, left := 0, before := r.before + rc }
      if r.before + rc < r.total then load s1 0
      else
        let s2 := (List.range 8).foldl (fun s c => s.setCore (8 * n + c) { s.core (8 * n + c) with posted := [] }) s1
        let s3 := s2.setRink n { s2.rink n with set := none, before := 0, total := 0 }
        ((s3.setF (rk n) RK_STATE_state 4).raise (rk n) 1).takeSet n

/-! ### The input copy -/

/-- A transfer counted on a Chairlift page (R355, R599). -/
def countXfer (s : State) (i rd wr : Nat) : State :=
  let p := clOf i
  (((s.wrapF p CL_XFER_count).countEvt p 0x10 1).countEvt p 0x11 rd).countEvt p 0x12 wr

/-- One cell moved from its stripe buffer into the input area (R266). -/
def copyCell (s : State) (n k : Nat) (c : CellRec) (p : RinkProg) : State :=
  let h := geomH c.geom
  let px := geomPx c.geom
  let fmt := storeFmt c.store
  let b := sampleBytes fmt
  let pitch := linePitch px fmt
  let base := bufAddr c.geom c.store c.bufWord c.buf + 256 + 16 * h
  let pad := leBytes b (s.getF (feStrm c.stream) FE_STRM_PAD_value)
  (List.range (storeChans c.store)).foldl (fun s ch => (List.range h).foldl (fun s r =>
    let row := s.stripeRd (base + (ch * h + r) * pitch + c.x0 * b) (c.valid * b) ++
      (List.replicate (c.width - c.valid) pad).flatten
    s.spadWr n ((p.inArea + k % p.inNbuf * p.inStride + ch * p.inPc + r * p.inPr) % 2 ^ 23) row) s) s

/-- The input copy takes the next record of the round while group 0 is loaded (R258, R266, R268, R321). -/
def inputCopy (s : State) (n : Nat) : State :=
  let r := s.rink n
  let k := r.copies
  if s.rkState n ≠ 2 ∨ s.groupNo n ≠ 0 ∨ r.set.isNone ∨ s.roundCells n ≤ k ∨ 6 ≤ (s.lift n).length then s
  else
    match r.recs[k]? with
    | none => s
    | some c =>
      if r.set ≠ some c.set then s
      else
        let p := s.prog n
        match s.semWait n p.freeSem with
        | .no => s
        | .range t => t
        | .met s1 =>
          let s2 := s1.copyCell n k c p
          let len := storeChans c.store * geomH c.geom * sampleBytes (storeFmt c.store)
          let s3 := s2.setRink n { s2.rink n with copies := k + 1, recs := setAt r.recs k { c with copied := true } }
          (s3.countXfer n (len * c.valid) (len * c.width)).semPost n p.fullSem

/-- A stripe is lost after some of its cells were released (R325, R327, R328): the rink Chairlift withdraws its records beyond the
boundary. -/
def withdraw (s : State) (n stream seq : Nat) : State :=
  let r := s.rink n
  let b := r.taken
  let tail := r.recs.drop b
  let keep := tail.filter fun c => !(c.stream == stream && c.seq == seq)
  let gone := tail.length - keep.length
  if gone = 0 then s
  else
    let p := s.prog n
    let m := r.copies - b
    let bytes := ((tail.take m).map fun c =>
      storeChans c.store * geomH c.geom * sampleBytes (storeFmt c.store) * c.width).foldl (· + ·) 0
    let inSet := (tail.filter fun c => (c.stream == stream && c.seq == seq) && r.set == some c.set).length
    let s1 := s.setRink n { r with
      recs := r.recs.take b ++ keep.map (fun c => { c with copied := false }), copies := min r.copies b, total := r.total - inSet }
    let s2 := (s1.setSem n p.fullSem (s1.semCount n p.fullSem - m)).semPost n p.freeSem m
    let s3 := ((s2.satF (clRink n) CL_WDRAW_cells gone).satF (clRink n) CL_WDRAW_copies m).raise (clRink n) 2
    (s3.discard n m bytes).settleRound n

/-! ### The carry mover -/

/-- Carry rows of a cell restored or filled, its last rows saved and tagged (R277, R278). -/
def carryCell (s : State) (n e k : Nat) (c : CellRec) (x : CarryEnt) : State :=
  let slot := x.store + c.pos * (ru64 (x.c * x.planes * x.rowBytes) + 64)
  let tag := s.spadRd n slot 64
  let hit := le tag 7 1 == 1 && le tag 4 1 == c.stream && le tag 5 1 == c.plan && le tag 6 1 == e &&
    le tag 0 4 == (c.seq + 2 ^ 32 - 1) % 2 ^ 32
  let row := fun p r => (x.area + k % x.nbuf * x.bstride + p * x.pc + r * x.pr) % 2 ^ 23
  let kept := fun p r => slot + 64 + (p * x.c + r) * x.rowBytes
  let each := fun (s : State) (f : State → Nat → Nat → State) =>
    (List.range x.planes).foldl (fun s p => (List.range x.c).foldl (fun s r => f s p r) s) s
  -- the entry names no element width: the two bytes of fill_const repeat (log 32)
  let const := (List.replicate (cdiv x.rowBytes 2) (leBytes 2 x.fillConst)).flatten.take x.rowBytes
  let s1 := each s fun s p r =>
    s.spadWr n (row p r) (if hit then s.spadRd n (kept p r) x.rowBytes else if x.fill = 1 then s.spadRd n (row p x.c) x.rowBytes else const)
  let s2 := if hit then s1.satF (rk n) RK_CARRY_STAT_restores
    else ((s1.satF (rk n) RK_CARRY_STAT_fills).raise (rk n) 4).countEvt (rk n) 0x14 1
  let s3 := each s2 fun s p r => s.spadWr n (kept p r) (s.spadRd n (row p (x.hrows + r)) x.rowBytes)
  s3.spadWr n slot (leBytes 4 c.seq ++ leBytes 1 c.stream ++ leBytes 1 c.plan ++ leBytes 1 e ++ leBytes 1 1 ++ zeros 56)

/-- The carry mover takes the next cell at the first entry in table order whose wait is met (R258, R278). -/
def carryMove (s : State) (n : Nat) : State :=
  if s.rkState n ≠ 2 ∧ s.rkState n ≠ 3 then s
  else
    let r := s.rink n
    let can := fun (e : CarryEnt × Nat) =>
      let k := r.carry.getD e.2 0
      decide (k < s.roundCells n) && (r.recs[k]?).isSome && (s.semCount n e.1.inSem != 0 || s.semLimit n e.1.inSem == 0)
    match (s.group n).carries.zipIdx.find? can with
    | none => s
    | some (x, e) =>
      let k := r.carry.getD e 0
      match r.recs[k]?, s.semWait n x.inSem with
      | some c, .met s1 =>
        let s2 := s1.carryCell n e k c x
        (s2.setRink n { s2.rink n with carry := setAt (s2.rink n).carry e (k + 1) }).semPost n x.outSem
      | _, .range t => t
      | _, _ => s

/-! ### The halo unit -/

/-- The halo unit at an entry, and with it replaced. -/
def haloPos (s : State) (n e : Nat) : HaloPos := (s.rink n).halo.getD e .start
def setHaloPos (s : State) (n e : Nat) (p : HaloPos) : State :=
  let r := s.rink n
  s.setRink n { r with halo := setAt r.halo e p }

/-- A credit goes back to a sender (R273): over the chip, or over a Tuzer link. `right` is the sender's side. -/
def giveCredit (s : State) (node m e : Nat) (right : Bool) : State :=
  if node = s.node then
    let r := s.rink m
    s.setRink m { r with credits := r.credits ++ [(e, right)] }
  else s.tzSend node (tzPacket 4 node s.node 0 0 (m + e * 16 + b01 right * 128) [])

/-- Edge columns go to a neighbour (R273, R276): to the rink, or as HALO packets into its receive slot. -/
def sendEdge (s : State) (n e k : Nat) (x : HaloEnt) (c : CellRec) (right : Bool) : State :=
  let (_, node, m) := nbr c right
  let data := haloCols (s.spadReader n) x k (if right then x.width else x.h)
  let col := if right then c.x0 + c.width else c.x0
  let s1 := s.countEvt (rk n) 0x11 data.length
  if node = s.node then
    let r := s1.rink m
    s1.setRink m { r with inbound := r.inbound ++ [⟨s.node, n, e, !right, c.seq, c.stream, col, data⟩] }
  else
    let img := haloTag c.seq c.stream e col ++ data
    let img := img ++ zeros (ru64 img.length - img.length)
    let slot := b01 (!right) * 2 + k % 2
    (List.range (cdiv img.length 256)).foldl (fun s i =>
      let part := (img.drop (256 * i)).take 256
      s.tzSend node (tzPacket 3 node s.node 0 (n + 16 * e) (m + 16 * slot + 256 * (256 * i)) part)) s1

/-- A margin filled by the entry's rule (R240, R273). -/
def fillMargin (s : State) (n k : Nat) (x : HaloEnt) (right : Bool) : State :=
  (List.range x.planes).foldl (fun s p => (List.range x.rows).foldl (fun s r => (List.range x.h).foldl (fun s (i : Nat) =>
    let at' : Int := if right then (x.width : Int) + i else (i : Int) - x.h
    let bs := if x.fill = 0 then leBytes x.b x.fillConst
      else s.spadRd n (haloAddr x k p r (x.h + foldCoord (x.fill == 1) x.width at')) x.b
    s.spadWr n (haloAddr x k p r (marginCol x right + (i : Nat)) % 2 ^ 23) bs) s) s) s

/-- Received columns copied into a margin (R273). -/
def copyMargin (s : State) (n k : Nat) (x : HaloEnt) (right : Bool) (data : List Byte) : State :=
  (List.range x.planes).foldl (fun s p => (List.range x.rows).foldl (fun s r =>
    s.spadWr n (haloAddr x k p r (marginCol x right) % 2 ^ 23) (sub data ((p * x.rows + r) * x.h * x.b) (x.h * x.b))) s) s

/-- A message is for this margin of this cell (R273). -/
def matchesMargin (m : HaloMsg) (c : CellRec) (e : Nat) (right : Bool) : Bool :=
  m.seq == c.seq && m.stream == c.stream && m.entry == e && m.right == right && m.col == (if right then c.x0 + c.width else c.x0)

/-- One side of the cell at an entry: filled where no neighbour is present, copied and credited where its columns are held; the
flag says whether the side is done (R273). -/
def marginStep (s : State) (n e k : Nat) (x : HaloEnt) (c : CellRec) (right : Bool) : State × Bool :=
  if !(nbr c right).1 then (s.fillMargin n k x right, true)
  else
    let r := s.rink n
    match r.rx.find? (fun m => matchesMargin m c e right) with
    | some m =>
      let s1 := (s.copyMargin n k x right m.data).countEvt (rk n) 0x12 m.data.length
      let s2 := s1.setRink n { r with rx := r.rx.erase m }
      (s2.giveCredit m.node m.src e (!right), true)
    | none => (s, false)

/-- The halo unit goes on with the cell it has begun at an entry: both sends, then the margins, left first, then out_sem. -/
def haloAdvance (s : State) (n e : Nat) (x : HaloEnt) : State :=
  let p := s.haloPos n e
  match (s.rink n).recs[p.done]? with
  | none => s
  | some c =>
    if !p.begun then s
    else
      let send := fun (t : State × HaloPos) (right : Bool) =>
        let q := t.2
        let sent := if right then q.sentR else q.sentL
        let credit := if right then q.creditR else q.creditL
        let mark := fun (q : HaloPos) => if right then { q with sentR := true } else { q with sentL := true }
        if sent || (right && !q.sentL) then t
        else if !(nbr c right).1 then (t.1, mark q)
        else if credit = 0 then t
        else (t.1.sendEdge n e p.done x c right, if right then { mark q with creditR := credit - 1 } else { mark q with creditL := credit - 1 })
      let (s1, q1) := send (send (s, p) false) true
      let margin := fun (t : State × HaloPos) (right : Bool) =>
        let q := t.2
        if !(q.sentL && q.sentR) || (if right then q.doneR || !q.doneL else q.doneL) then t
        else
          let (s2, ok) := t.1.marginStep n e p.done x c right
          if ok then (s2, if right then { q with doneR := true } else { q with doneL := true }) else (s2, q)
      let (s2, q2) := margin (margin (s1, q1) false) true
      -- credits returned to this very entry meanwhile wait in the rink's list
      if q2.doneL && q2.doneR then
        (s2.setHaloPos n e { q2 with done := p.done + 1, begun := false, sentL := false, sentR := false, doneL := false, doneR := false })
          |>.semPost n x.outSem
      else s2.setHaloPos n e q2

/-- An entry of the halo unit can go on: it begins a cell, or a send or a margin of the cell it has begun is possible. -/
def haloCan (s : State) (n : Nat) (x : HaloEnt × Nat) : Bool :=
  let p := s.haloPos n x.2
  match (s.rink n).recs[p.done]? with
  | none => false
  | some c =>
    if !p.begun then decide (p.done < s.roundCells n) && (s.semCount n x.1.inSem != 0 || s.semLimit n x.1.inSem == 0)
    else if !p.sentL then !(nbr c false).1 || p.creditL != 0
    else if !p.sentR then !(nbr c true).1 || p.creditR != 0
    else
      let right := p.doneL
      !(nbr c right).1 || (s.rink n).rx.any fun m => matchesMargin m c x.2 right

/-- The halo unit makes the sends it can at the first entry in table order that can go on (R258, R273). -/
def haloSend (s : State) (n : Nat) : State :=
  if s.rkState n ≠ 2 ∧ s.rkState n ≠ 3 then s
  else
    match (s.group n).halos.zipIdx.find? (s.haloCan n) with
    | none => s
    | some (x, e) =>
      if (s.haloPos n e).begun then s.haloAdvance n e x
      else
        match s.semWait n x.inSem with
        | .no => s
        | .range t => t
        | .met s1 => (s1.setHaloPos n e { s1.haloPos n e with begun := true }).haloAdvance n e x

/-- The margin of a cell that has not been filled (R274). -/
def marginOpen (s : State) (n i e : Nat) (right : Bool) : Bool :=
  let p := s.haloPos n e
  decide (p.done < i) || (p.done == i && !(if right then p.doneR else p.doneL))

/-- Columns written into a receive slot: the side's first, or its second while the first is held (R272). -/
def slotWrite (s : State) (n : Nat) (x : HaloEnt) (m : HaloMsg) : State :=
  let one := (s.rink n).rx.any fun h => h.entry == m.entry && h.right == m.right
  let slot := b01 m.right * 2 + b01 one
  s.spadWr n ((x.rxbuf + slot * haloSlot x) % 2 ^ 23) (haloTag m.seq m.stream m.entry m.col ++ m.data)

/-- The oldest columns on their way arrive (R273, R274): held for the margin they match, or dropped as late with their credit
returned. A margin that waits for them takes them at once. -/
def haloArrival (s : State) (n : Nat) : State :=
  let r := s.rink n
  match r.inbound with
  | [] => s
  | m :: rest =>
    let s1 := s.setRink n { r with inbound := rest }
    let fits := (r.recs.zipIdx.any fun c => matchesMargin m c.1 m.entry m.right && s.marginOpen n c.2 m.entry m.right) &&
      !r.rx.any fun h => h.seq == m.seq && h.stream == m.stream && h.entry == m.entry && h.right == m.right && h.col == m.col
    if !fits then
      ((s1.satF (rk n) RK_HALO_STAT_late).raise (rk n) 5).giveCredit m.node m.src m.entry (!m.right)
    else
      match (s.group n).halos[m.entry]? with
      | none => s1.setRink n { s1.rink n with rx := r.rx ++ [m] }
      | some x =>
        let s2 := s1.slotWrite n x m
        let s3 := s2.setRink n { s2.rink n with rx := r.rx ++ [m] }
        let p := s3.haloPos n m.entry
        if p.begun && p.sentL && p.sentR then s3.haloAdvance n m.entry x else s3

/-- A credit reaches the sender's entry and side (R273). -/
def haloCreditReturn (s : State) (n e : Nat) (right : Bool) : State :=
  let r := s.rink n
  if r.credits.contains (e, right) then
    let p := s.haloPos n e
    let q := if right then { p with creditR := min 2 (p.creditR + 1) } else { p with creditL := min 2 (p.creditL + 1) }
    (s.setRink n { r with credits := r.credits.erase (e, right) }).setHaloPos n e q
  else s

/-- The gate of the cell at an entry has passed: sends that wait are abandoned (R275), margins that have not arrived are filled, with
HALO_TIMEOUT and the cell flagged (R274). -/
def timeoutEntry (s : State) (n e : Nat) (x : HaloEnt) : State :=
  let p := s.haloPos n e
  match (s.rink n).recs[p.done]? with
  | none => s
  | some c =>
    if !p.begun || s.ns ≤ c.gate then s
    else
      let s0 := s.setHaloPos n e { p with sentL := true, sentR := true }
      let side := fun (t : State × Bool) (right : Bool) =>
        let q := t.1.haloPos n e
        if if right then q.doneR else q.doneL then t
        else
          let (s1, ok) := t.1.marginStep n e p.done x c right
          let s2 := if ok then s1
            else ((((s1.fillMargin n p.done x right).satF (rk n) RK_HALO_STAT_timeouts).raise (rk n) 2).post (rk n) 0x0308).flagRec n p.done
          (s2.setHaloPos n e (let q2 := s2.haloPos n e; if right then { q2 with doneR := true } else { q2 with doneL := true }), true)
      let (s3, _) := side (side (s0, false) false) true
      (s3.setHaloPos n e { s3.haloPos n e with
        done := p.done + 1, begun := false, sentL := false, sentR := false, doneL := false, doneR := false }).semPost n x.outSem

/-- HALO_TIMEOUT: the gate passes at the first entry, in table order, whose cell's gate has come (R274, R275). -/
def haloTimeout (s : State) (n : Nat) : State :=
  let due := fun (x : HaloEnt × Nat) =>
    let p := s.haloPos n x.2
    match (s.rink n).recs[p.done]? with | some c => p.begun && decide (c.gate < s.ns) | none => false
  if s.rkState n ≠ 2 ∧ s.rkState n ≠ 3 then s
  else match (s.group n).halos.zipIdx.find? due with
    | some (x, e) => s.timeoutEntry n e x
    | none => s

end State

/-! ### The commands -/

/-- GROUP_LOADED (R265). -/
def execGroupLoaded (n : Fin 16) (s : State) : Host.Outcome State Fault Refusal := s.eng (s.groupLoaded n)
/-- RINK_DRAIN_DONE (R264). -/
def execRinkDrainDone (n : Fin 16) (s : State) : Host.Outcome State Fault Refusal := s.eng (s.drainDone n)
/-- INPUT_COPY (R266). -/
def execInputCopy (n : Fin 16) (s : State) : Host.Outcome State Fault Refusal := s.eng (s.inputCopy n)
/-- CARRY_MOVE (R278). -/
def execCarryMove (n : Fin 16) (s : State) : Host.Outcome State Fault Refusal := s.eng (s.carryMove n)
/-- HALO_SEND (R273). -/
def execHaloSend (n : Fin 16) (s : State) : Host.Outcome State Fault Refusal := s.eng (s.haloSend n)
/-- HALO_ARRIVAL (R274). -/
def execHaloArrival (n : Fin 16) (s : State) : Host.Outcome State Fault Refusal := s.eng (s.haloArrival n)
/-- HALO_CREDIT_RETURN (R273). -/
def execHaloCreditReturn (n : Fin 16) (entry : Fin 8) (right : Bool) (s : State) : Host.Outcome State Fault Refusal :=
  s.eng (s.haloCreditReturn n entry right)
/-- HALO_TIMEOUT (R274). -/
def execHaloTimeout (n : Fin 16) (s : State) : Host.Outcome State Fault Refusal := s.eng (s.haloTimeout n)

end Sys2Proof.Machine
end

