-- ==== Sys2Proof/Machine/Lift.lean ====
section
/-! DEFINITION. Chairlifts and the Gondola as commands (R320 to R326, R329 to R336): a due tile is fetched, its slot is filled, a
multicast tile is credited, a receiver is detached. -/

namespace Sys2Proof.Machine

namespace OpSt

/-- The distinct tiles of an operand at a level in the order of the walk, each with the first visit that uses it (R215). P2 of a
fused pair takes its activations from the intermediate. -/
def tiles (p : OpSt) (level : Nat) (weight : Bool) : List (Nat × Visit) :=
  let num := fun (v : Visit) => match level, weight with
    | 1, false => v.act1 | 1, true => v.wt1 | _, false => v.act2 | _, true => v.wt2
  let uses := fun (v : Visit) =>
    let o := p.oper v.phase
    !v.skip && (if weight then o.hasWeights && (level == 1 || o.l.wtExt) else v.phase == 0 && (level == 1 || o.l.actExt))
  (p.visits.filter uses).foldl (fun acc v => if acc.any (fun e => e.1 == num v) then acc else acc ++ [(num v, v)]) []

/-- Bytes of a slot (R221). -/
def slotBytes (p : OpSt) (ph level : Nat) (weight : Bool) : Nat :=
  let o := p.oper ph
  if weight then o.wSlot (p.sizes ph level) else o.aSlot (p.sizes ph level)

/-- The operand's T1 tiles come from T2. -/
def viaT2 (p : OpSt) (ph : Nat) (weight : Bool) : Bool := if weight then (p.oper ph).l.wtExt else (p.oper ph).l.actExt

/-- The element offset of a weight (R206). -/
def weightOff (o : Oper) (oc ky kx ic : Nat) : Int :=
  (oc : Int) * o.l.wtS dOC + (ky : Int) * o.l.wtS dKY + (kx : Int) * o.l.wtS dKX + (ic : Int) * o.l.wtS dIC

/-- What names a weight T2 tile on the Gondola: where it starts in the operand. -/
def weightKey (p : OpSt) (v : Visit) : Nat :=
  (weightOff (p.oper v.phase) (v.t2.at' dOC) (v.t2.at' dKY) (v.t2.at' dKX) (v.t2.at' dIC) + 2 ^ 60).toNat

end OpSt

namespace State

/-! ### GDDR6 reads -/

/-- An uncorrectable GDDR6 read (R391): counted, its block recorded, GD_ECC_UE posted by the channel's page. -/
def gddrUe (s : State) (a : Nat) : State :=
  let n := a / 64
  let p := mxCh (gddrChannel n)
  ((((s.satF p MX_CH_ECC_ue).setF p MX_CH_ECC_ADDR_block n).raise p 1)).post p 0x0506

/-- Blocks read from GDDR6, counted at their channels (R599, R605). -/
def readBlocks (s : State) (addrs : List Nat) : State :=
  ((addrs.map (· / 64)).eraseDups).foldl (fun s n => s.gdCount (n * 64) 64 false) s

/-! ### What a tile is read from -/

/-- The weight base in GDDR6 of an operator: in the bank of its cell where the operator is adapted (R231, R362, R376). -/
def weightBase (s : State) (k : Nat) (p : OpSt) (ph : Nat) : Nat :=
  let o := p.oper ph
  let off := match (s.rink (k / 8)).job with
    | some j => match s.job j with
      | some x => match x.adapt with
        | some a => if a.desc.layers.any (fun l => l.key == o.d.wtBase) then p.rcd.bank * a.desc.bankStride else 0
        | none => 0
      | none => 0
    | none => 0
  64 * (o.d.wtBase + off)

/-- The base of an activation operand that comes by T2, as a byte address (R231). -/
def actBase (p : OpSt) : Nat :=
  let o := p.o
  let c := p.rcd
  if o.actFromGddr then 64 * (o.d.actBase % 2 ^ 28)
  else
    let h := geomH c.geom
    bufAddr c.geom c.store c.bufWord c.buf + 256 + 16 * h + c.x0 * sampleBytes (storeFmt c.store) + o.d.actBase

/-- The reader of the memory that an activation T2 tile comes from. -/
def actReader (s : State) (p : OpSt) : Reader := if p.o.actFromGddr then fun a n => s.gddrRd a n else fun a n => s.stripeRd a n

/-- The rows of an activation slot at a level as (byte offset, codes), for the tile of a visit (R217, R221, R235, R240). -/
def actRows (s : State) (k : Nat) (p : OpSt) (level : Nat) (v : Visit) (slot2 : Nat) : List (Nat × List Nat) :=
  let o := p.o
  let ext : Dims := p.ext
  let st := if level = 1 then v.t1 else v.t2
  let sz := p.sizes 0 level
  let inW := o.inW p.cellW
  let inH := o.inH p.cellH
  let spad := s.spadReader (k / 8)
  if level = 1 ∧ o.l.actExt then
    let sz2 := p.sizes 0 2
    let a2 := p.slotAddr2 0 (s.fahead k) false slot2
    let rb2 := o.rowBytes sz2
    if o.planar then
      planarSlot o ext st sz fun c y x =>
        codeAt spad (a2 + ((c - v.t2.at' o.chDim) * o.spanY sz2 + (y - originY o v.t2).toNat) * rb2) o.q.act (x - originX o v.t2).toNat
    else
      rowSlot o ext st sz fun oy ox ic =>
        codeAt spad (a2 + ((oy - v.t2.at' dOY) * sz2 dOX + (ox - v.t2.at' dOX)) * rb2) o.q.act (ic - v.t2.at' dIC)
  else
    let rd := if level = 1 then spad else s.actReader p
    let base := if level = 1 then o.d.actBase % 2 ^ 23 else actBase p
    if o.planar then planarSlot o ext st sz fun c y x => imgCode o inW inH (planarCode o rd base) c y x
    else rowSlot o ext st sz fun oy ox ic =>
      elemAt rd base o.q.act ((oy : Int) * o.l.actS dOY + (ox : Int) * o.l.actS dOX + (ic : Int) * o.l.actS dIC)

/-- The codes of a weight slot at a level for the tile of a visit (R217, R221, R231). -/
def weightCodes (s : State) (k : Nat) (p : OpSt) (level : Nat) (v : Visit) (slot2 : Nat) : List Nat :=
  let o := p.oper v.phase
  let ext := p.extOf v.phase
  let st := if level = 1 then v.t1 else v.t2
  let sz := p.sizes v.phase level
  let spad := s.spadReader (k / 8)
  if level = 1 ∧ o.l.wtExt then
    let sz2 := p.sizes v.phase 2
    let a2 := p.slotAddr2 v.phase (s.fahead k) true slot2
    weightSlot ext st sz fun oc ky kx ic => codeAt spad a2 o.q.wt (weightIdx v.t2 sz2 oc ky kx ic)
  else
    let rd : Reader := if level = 1 then spad else fun a n => s.gddrRd a n
    let base := if level = 1 then o.d.wtBase % 2 ^ 23 else s.weightBase k p v.phase
    weightSlot ext st sz fun oc ky kx ic => elemAt rd base o.q.wt (OpSt.weightOff o oc ky kx ic)

/-- Bytes put into a core buffer or, at T2, into the scratchpad. -/
def slotPut (s : State) (k : Nat) (p : OpSt) (level : Nat) (weight : Bool) (ph slot : Nat) (rows : List (Nat × List Byte)) : State :=
  if level = 1 then
    let c := s.core k
    let a := p.slotAddr ph weight slot
    let put := fun m => rows.foldl (fun m r => memWrite m (a + r.1) r.2) m
    s.setCore k (if weight then { c with wbuf := put c.wbuf } else { c with abuf := put c.abuf })
  else
    let a := p.slotAddr2 ph (s.fahead k) weight slot
    rows.foldl (fun s r => s.spadWr (k / 8) ((a + r.1) % 2 ^ 23) r.2) s

/-- A tile written into its slot, which is then filled (R217, R323). -/
def fillSlot (s : State) (k : Nat) (p : OpSt) (level : Nat) (weight : Bool) (tile slot : Nat) : State × OpSt :=
  match (p.tiles level weight).find? (fun e => e.1 == tile) with
  | none => (s, p)
  | some (_, v) =>
    let x2 := p.slots 2 weight
    let slot2 := (OpSt.slotOf x2 (if weight then v.wt2 else v.act2)).getD 0
    let o := p.oper v.phase
    let rows := if weight then [(0, packCodes o.q.wt (s.weightCodes k p level v slot2))]
      else (s.actRows k p level v slot2).map fun r => (r.1, packCodes o.q.act r.2)
    let s1 := s.slotPut k p level weight v.phase slot rows
    let x := p.slots level weight
    let held := x.held.map fun h => if h.1 = tile then (h.1, h.2.1, true) else h
    (s1.setSlotSem k level weight true (s1.slotSem k level weight true + 1), p.setSlots level weight { x with held := held })

/-! ### Fetches that are due -/

/-- The next tile of an operand that the fetch-ahead depth and the slots admit (R322, R323): its number and visit. A T1 tile behind
T2 waits for its T2 tile. -/
def dueTile (s : State) (k : Nat) (p : OpSt) (level : Nat) (weight : Bool) : Option (Nat × Visit) :=
  let x := p.slots level weight
  let ts := p.tiles level weight
  let i := x.started.length
  let f := s.fahead k
  match ts[i]? with
  | none => none
  | some (t, v) =>
    let ahead := decide (i < f) || (match ts[i - f]? with | some b => x.begun.contains b.1 | none => false)
    let there := !(level == 1 && p.viaT2 v.phase weight) ||
      (OpSt.slotOf (p.slots 2 weight) (if weight then v.wt2 else v.act2)).isSome
    if ahead && there && s.slotSem k level weight false != 0 then some (t, v) else none

/-- A slot that holds no tile. -/
def freeSlot (x : Slots) (f : Nat) : Nat :=
  ((List.range (f + 1)).find? fun i => !x.held.any fun h => h.2.1 == i).getD 0

/-- How a weight T2 request goes (R331, R332, R334, R376): to GDDR6, to a group whose run it starts or belongs to, held until the run
ends, or to GDDR6 after leaving the run, with LATE or without. -/
inductive GdRoute where
  | unicast
  | start (g : Nat)
  | join (g : Nat)
  | wait
  | leave (g : Nat)
  | late (g : Nat)
  deriving DecidableEq, Repr

def gdRoute (s : State) (k : Nat) (p : OpSt) (v : Visit) (first : Bool) : GdRoute :=
  let o := p.oper v.phase
  let mine := fun g => let x := s.gond g; (s.rink (k / 8)).job == some x.job && x.key == o.d.wtBase && bit x.mapped k
  if p.unicast || !s.flag gdPage GD_CTRL_en then .unicast
  else
    match (List.range 16).find? mine with
    | none => .unicast
    | some g =>
      match (s.gond g).run with
      | none => if first then .start g else .unicast
      | some r =>
        match r.attached.find? (fun a => a.1 == 16 + k) with
        | none => .wait
        | some a =>
          if r.tiles.length ≤ a.2 then .wait
          else if r.bank ≠ p.rcd.bank then .leave g
          else if r.tiles[a.2]? = some (p.weightKey v) then .join g
          else .late g

/-- The current operator of a core, while its walk has tiles to take. -/
def walking (s : State) (k : Nat) : Option OpSt :=
  match (s.core k).cur with
  | some p => if p.walked then none else some p
  | none => none

/-- A due transfer: core, operand, level, tile and visit. -/
structure Due where
  core : Nat
  weight : Bool
  level : Nat
  tile : Nat
  v : Visit
  deriving DecidableEq, Repr

/-- The due transfers of a Chairlift: activations before weights, cores in order (log 33). -/
def dues (s : State) (i : Nat) : List Due :=
  let at' := fun k level w => match s.walking k with
    | some p => match s.dueTile k p level w with
      | some (t, v) =>
        if level == 2 && w && s.gdRoute k p v (p.wt2.started.isEmpty) == .wait then [] else [(⟨k, w, level, t, v⟩ : Due)]
      | none => []
    | none => []
  if i < 16 then (List.range 8).flatMap fun c => at' (8 * i + c) 2 false ++ at' (8 * i + c) 2 true
  else at' (i - 16) 1 false ++ at' (i - 16) 1 true

/-- A receiver leaves a run with LATE (R334, R335). -/
def lateDetach (s : State) (g recv : Nat) : State :=
  let x := s.gond g
  match x.run with
  | none => s
  | some r =>
    if r.attached.any (fun a => a.1 == recv) then
      let att := r.attached.filter fun a => a.1 != recv
      let passed := att.all fun a => decide (r.tiles.length ≤ a.2)
      let s1 := if passed then (s.setGond g { x with run := none, runs := x.runs + 1 }).wrapF gdPage GD_STAT_runs
        else s.setGond g { x with run := some { r with attached := att, detached := recv :: r.detached } }
      ((s1.satF gdPage GD_STAT_detaches).raise gdPage 0).post gdPage 0x0301
    else s

/-- A fetch starts (R321, R323, R331, R332). -/
def startDue (s : State) (i : Nat) (d : Due) : State :=
  let k := d.core
  match s.walking k with
  | none => s
  | some p =>
    let f := s.fahead k
    let x := p.slots d.level d.weight
    let slot := freeSlot x f
    let route := if d.level == 2 && d.weight then s.gdRoute k p d.v p.wt2.started.isEmpty else .unicast
    let keys := (p.tiles 2 true).map fun e => p.weightKey e.2
    let recv := 16 + k
    let s1 := match route with
      | .start g =>
        let all := ((List.range 128).filter fun c => bit (s.gond g).mapped c).map fun c => (16 + c, 0)
        s.setGond g { s.gond g with run := some ⟨p.rcd.bank, keys, all, []⟩ }
      | .late g => s.lateDetach g recv
      | .leave _ => s.leaveRuns recv
      | _ => s
    let via := match route with | .start g | .join g => some g | _ => none
    let solo := match route with | .late _ | .leave _ => true | _ => false
    let p1 := { p.setSlots d.level d.weight { x with started := d.tile :: x.started, held := x.held ++ [(d.tile, slot, false)] } with
      unicast := p.unicast || solo }
    let t : Transfer := ⟨k, d.weight, d.level, d.tile, slot, p.slotBytes d.v.phase d.level d.weight, false, via⟩
    ((s1.setCur k p1).setSlotSem k d.level d.weight false (s1.slotSem k d.level d.weight false - 1)).setLift i (s1.lift i ++ [t])

/-- The oldest due transfer of a Chairlift starts while fewer than six are outstanding (R321). -/
def fetchStart (s : State) (i : Nat) : State :=
  if 6 ≤ (s.lift i).length then s
  else match s.dues i with
    | [] => s
    | d :: _ => s.startDue i d

/-! ### Transfers that end -/

/-- The GDDR6 bytes that a T2 tile takes, as addresses of its elements in bounds. -/
def tileAddrs (s : State) (k : Nat) (p : OpSt) (weight : Bool) (v : Visit) : List Nat :=
  let o := p.oper v.phase
  let ext := p.extOf v.phase
  let sz := p.sizes v.phase 2
  let b := fun (base : Nat) (i : Int) (fmt : Nat) => ((base : Int) + i * (fmtBits fmt : Nat) / 8).toNat
  let span := fun d => (List.range (sz d)).filterMap fun j => let e := v.t2.at' d + j; if e < ext.at' d then some e else none
  if weight then
    let base := s.weightBase k p v.phase
    (span dOC).flatMap fun oc => (span dKY).flatMap fun ky => (span dKX).flatMap fun kx => (span dIC).map fun ic =>
      b base (OpSt.weightOff o oc ky kx ic) o.q.wt
  else if o.planar then
    let y0 := originY o v.t2
    let x0 := originX o v.t2
    (span o.chDim).flatMap fun (c : Nat) => (List.range (o.spanY sz)).flatMap fun (yi : Nat) => (List.range (o.spanX sz)).filterMap fun (xi : Nat) =>
      match imgElem o (o.inW p.cellW) (o.inH p.cellH) (y0 + yi) (x0 + xi) with
      | .read y x => some (b (actBase p) ((c : Int) * pitchPlane o + (y : Int) * pitchRow o + x) o.q.act)
      | .code _ => none
  else
    (span dOY).flatMap fun (oy : Nat) => (span dOX).flatMap fun (ox : Nat) => (span dIC).map fun (ic : Nat) =>
      b (actBase p) ((oy : Int) * o.l.actS dOY + (ox : Int) * o.l.actS dOX + (ic : Int) * o.l.actS dIC) o.q.act

/-- A T2 tile comes from GDDR6. -/
def fromGddr (p : OpSt) (weight : Bool) : Bool := weight || p.o.actFromGddr

/-- An uncorrectable error of a transfer's read (R324, R411). -/
def failTransfer (s : State) (i : Nat) (p : OpSt) (t : Transfer) : State :=
  if t.level = 1 then s.post (clCore t.core) 0x0502
  else
    let s1 := s.raise (clOf i) 1
    let a := match (p.tiles 2 t.weight).find? (fun e => e.1 == t.tile) with
      | some (_, v) => (s.tileAddrs t.core p t.weight v).headD 0
      | none => 0
    let s2 := if fromGddr p t.weight then s1.gddrUe a else s1.post feCommonPage 0x0503
    match s2.walking t.core with
    | some q => s2.endEarly t.core q
    | none => s2

/-- The oldest outstanding unicast transfer of a Chairlift ends (R323, R324, R326). -/
def transferDone (s : State) (i : Nat) (failed : Bool) : State :=
  match (s.lift i).find? (fun t => t.via.isNone || t.dead) with
  | none => s
  | some t =>
    let s1 := s.setLift i ((s.lift i).erase t)
    if t.dead then s1.countXfer i t.bytes 0
    else
      match s1.walking t.core with
      | none => s1.countXfer i t.bytes 0
      | some p =>
        if failed then s1.failTransfer i p t
        else
          let s2 := match (p.tiles 2 t.weight).find? (fun e => e.1 == t.tile) with
            | some (_, v) => if t.level = 2 ∧ fromGddr p t.weight then s1.readBlocks (s1.tileAddrs t.core p t.weight v) else s1
            | none => s1
          let (s3, p1) := s2.fillSlot t.core p t.level t.weight t.tile t.slot
          (s3.setCur t.core p1).countXfer i t.bytes t.bytes

/-! ### The Gondola -/

/-- The weight bytes of tile n of a run, in beats, as its receivers' operators see them. -/
def runBeats (p : OpSt) : Nat :=
  match p.tiles 2 true with
  | (_, v) :: _ => cdiv (p.slotBytes v.phase 2 true) 64
  | [] => 0

/-- The head may be at most 64 beats ahead of an attached receiver (R333): one that has asked for its next tile can have taken all but
its last beat. -/
def skidOk (s : State) (r : GondolaRun) (recv beats : Nat) : Bool :=
  match r.attached.find? (fun a => a.1 == recv) with
  | none => false
  | some me => r.attached.all fun a =>
      let asked := (s.lift ((a.1 - 16) / 8)).any fun t => t.core == a.1 - 16 && t.via.isSome && !t.dead
      decide ((me.2 + 1) * beats ≤ (a.2 + b01 asked) * beats + 64)

/-- A receiver takes the last beat of its tile, written and credited (R333); the run ends when every attached receiver has the last
tile (R332). -/
def tileCredit (s : State) (g recv : Nat) : State :=
  let k := recv - 16
  let i := k / 8
  let x := s.gond g
  match x.run, s.walking k, (s.lift i).find? (fun t => t.core == k && t.via == some g && !t.dead) with
  | some r, some p, some t =>
    if !s.skidOk r recv (runBeats p) then s
    else
      let ptr := match r.attached.find? (fun a => a.1 == recv) with | some a => a.2 | none => 0
      let lead := r.attached.all fun a => decide (a.2 ≤ ptr)
      let s1 := s.setLift i ((s.lift i).erase t)
      let s2 := match (p.tiles 2 true).find? (fun e => e.1 == t.tile) with
        | some (_, v) => if lead then s1.readBlocks (s1.tileAddrs k p true v) else s1
        | none => s1
      let (s3, p1) := s2.fillSlot k p 2 true t.tile t.slot
      let s4 := (s3.setCur k p1).countXfer i t.bytes t.bytes
      let att := r.attached.map fun a => if a.1 = recv then (a.1, a.2 + 1) else a
      if att.all fun a => decide (r.tiles.length ≤ a.2) then
        (s4.setGond g { x with run := none, runs := x.runs + 1 }).wrapF gdPage GD_STAT_runs
      else s4.setGond g { x with run := some { r with attached := att } }
  | _, _, _ => s

/-- A receiver's lag count has reached the limit (R334, R335): it is detached, and what it was receiving is fetched again by
unicast. The head is ahead of it only when another receiver has taken a beat beyond it. -/
def gdDetach (s : State) (g recv : Nat) : State :=
  let k := recv - 16
  let i := k / 8
  match (s.gond g).run with
  | none => s
  | some r =>
    match r.attached.find? (fun a => a.1 == recv) with
    | none => s
    | some me =>
      let asked := fun (a : Nat × Nat) => (s.lift ((a.1 - 16) / 8)).any fun t => t.core == a.1 - 16 && t.via == some g && !t.dead
      let ahead := r.attached.any fun a => a.1 != recv && (decide (me.2 < a.2) || (a.2 == me.2 && asked a))
      if r.tiles.length ≤ me.2 || !(ahead || asked me) then s
      else
        let s1 := s.lateDetach g recv
        match (s.lift i).find? (fun t => t.core == k && t.via == some g && !t.dead), s1.walking k with
        | some t, some p =>
          let x := p.wt2
          let p1 := { p with
            unicast := true
            wt2 := { x with started := x.started.filter (· != t.tile), held := x.held.filter fun h => h.1 != t.tile } }
          ((s1.setCur k p1).setSlotSem k 2 true false (s1.slotSem k 2 true false + 1)).setLift i ((s1.lift i).erase t)
        | _, some p => s1.setCur k { p with unicast := true }
        | _, none => s1

/-- A GDDR6 read of a run fails (R336): every attached receiver's operator ends, and the run. -/
def runFails (s : State) (g : Nat) : State :=
  let x := s.gond g
  match x.run with
  | none => s
  | some r =>
    let s1 := (s.setGond g { x with run := none, runs := x.runs + 1 }).raise gdPage 1
    r.attached.foldl (fun s a => match s.walking (a.1 - 16) with
      | some p => if p.o.l.wtExt && p.o.d.wtBase == x.key then s.endEarly (a.1 - 16) p else s
      | none => s) s1

/-- A transfer ends, one of a run with an uncorrectable read included (R324, R336). -/
def liftDone (s : State) (i : Nat) (failed : Bool) : State :=
  match (s.lift i).find? (fun t => t.via.isNone || t.dead) with
  | some _ => s.transferDone i failed
  | none =>
    match (s.lift i).head? with
    | some t =>
      if !failed then s
      else match t.via, s.walking t.core with
        | some g, some p =>
          let a := match (p.tiles 2 true).find? (fun e => e.1 == t.tile) with
            | some (_, v) => (s.tileAddrs t.core p true v).headD 0
            | none => 0
          ((s.raise (clOf i) 1).gddrUe a).runFails g
        | _, _ => s
    | none => s

end State

/-- CHAIRLIFT_FETCH_START (R321). -/
def execChairliftFetchStart (i : Fin 144) (s : State) : Host.Outcome State Fault Refusal := s.eng (s.fetchStart i)
/-- CHAIRLIFT_TRANSFER_DONE (R323). -/
def execChairliftTransferDone (i : Fin 144) (failed : Bool) (s : State) : Host.Outcome State Fault Refusal :=
  s.eng (s.liftDone i failed)
/-- GONDOLA_TILE_CREDIT (R333). A number below 16 names no core. -/
def execGondolaTileCredit (g : Fin 16) (recv : Fin 144) (s : State) : Host.Outcome State Fault Refusal :=
  s.eng (if recv.val < 16 then s else s.tileCredit g recv)
/-- GONDOLA_DETACH (R334). -/
def execGondolaDetach (g : Fin 16) (recv : Fin 144) (s : State) : Host.Outcome State Fault Refusal :=
  s.eng (if recv.val < 16 then s else s.gdDetach g recv)

end Sys2Proof.Machine
end

