-- ==== Sys2Proof/Machine/Emit.lean ====
section
/-! DEFINITION. The verdict emitter (R305 to R315, R425, R426, R428, R514, R515): the cell summary, the comparison of copies,
the verdict record and its ring, markers, crops and captures. -/

namespace Sys2Proof.Machine

/-! ### Sets and plans -/

/-- An empty cell entry. -/
def PlanCell.none : PlanCell :=
  { piste := 0, rink := 0, pos := 0, x0 := 0, width := 0, gateOff := 0, left := 0, right := 0, replica := false }

/-- The plan that a set runs under. -/
def planOf (x : JobSt) (t : SetSt) : Option Plan := x.blk.plans[t.plan]?

/-- Entry i of a set's plan. -/
def entOf (x : JobSt) (t : SetSt) (i : Nat) : PlanCell :=
  match planOf x t with | some q => q.cells.getD i .none | none => .none

/-- The physical rink of entry i (R289). -/
def entRink (x : JobSt) (t : SetSt) (i : Nat) : Nat := State.physRink t.bind (entOf x t i).rink

/-- The replica copy of a primary, and the primary of a copy: the entry of the same piste, x0 and width (R420). -/
def pairOf (x : JobSt) (t : SetSt) (i : Nat) : Option Nat :=
  let e := entOf x t i
  (List.range t.cells.length).find? fun k =>
    let f := entOf x t k
    f.piste == e.piste && f.x0 == e.x0 && f.width == e.width && f.replica != e.replica

/-- The primary entry that entry i's verdict belongs to. -/
def primOf (x : JobSt) (t : SetSt) (i : Nat) : Nat :=
  if (entOf x t i).replica then (pairOf x t i).getD i else i

/-- The replica copy of a primary entry. -/
def copyOf (x : JobSt) (t : SetSt) (i : Nat) : Option Nat := if (entOf x t i).replica then none else pairOf x t i

/-- The member stripe of a piste. -/
def memberOf (t : SetSt) (piste : Nat) : Option Member := t.members.find? fun m => m.piste == piste

/-- Depth of copies of a piste (R421). -/
def depthOf (x : JobSt) (t : SetSt) (piste : Nat) : Nat := match planOf x t with | some q => q.depth.getD piste 0 | none => 0

/-- Every cell whose verdict goes to a ring has its verdict (R310). -/
def ringDone (x : JobSt) (t : SetSt) (ring : Nat) : Bool :=
  (List.range t.cells.length).all fun i =>
    (entOf x t i).replica || (match x.blk.pistes[(entOf x t i).piste]? with | some p => p.ring != ring | none => true) ||
      (match t.cells[i]? with | some c => c.done | none => true)

/-- Every verdict of a set is written. -/
def setDone (x : JobSt) (t : SetSt) : Bool :=
  (List.range t.cells.length).all fun i => (entOf x t i).replica || (match t.cells[i]? with | some c => c.done | none => true)

/-! ### The summary (R253, R308) -/

/-- What the emitter derives from a cell summary (R308). -/
structure Derived where
  top : Nat
  score : Nat
  x : Nat
  y : Nat
  mask : Nat
  defect : Nat
  pixels : Nat
  deriving DecidableEq, Repr

def sumCount (b : List Byte) (j : Nat) : Nat := le b (0x10 + 16 * j) 4
def sumScore (b : List Byte) (j : Nat) : Nat := le b (0x14 + 16 * j) 4

/-- The class of the largest score: of those with pixels other than bg_class, the lowest on a tie (R308). -/
def topClass (b : List Byte) : Option Nat :=
  (List.range 15).foldl (fun t j =>
    if j = le b 9 1 ∨ sumCount b j = 0 then t
    else match t with
      | none => some j
      | some k => if (of32 (sumScore b k)).lt (of32 (sumScore b j)) then some j else t) none

/-- The verdict fields of a summary (R308). -/
def derive' (b : List Byte) : Derived :=
  let bg := le b 9 1
  let classes := (List.range 15).filter fun j => j != bg && sumCount b j != 0
  let mask := classes.foldl setBit (if bg ≤ 14 ∧ le b 4 4 ≠ 0 then 2 ^ 15 else 0)
  let defect := if bg ≤ 14 then le b 0 4 - sumCount b bg else ((List.range 15).map (sumCount b)).foldl (· + ·) 0
  match topClass b with
  | some j => ⟨j, sumScore b j, le b (0x18 + 16 * j) 2, le b (0x1A + 16 * j) 2, mask, defect, le b 0 4⟩
  | none => ⟨0xFF, 0, 0, 0, mask, defect, le b 0 4⟩

/-- The named class of a rule meets both thresholds (R313 to R315). -/
def ruleMeets (b : List Byte) (cls minPx minScore : Nat) : Bool :=
  let d := derive' b
  let (px, sc) := if cls = 0xFE then (d.defect, d.score) else (sumCount b cls, sumScore b cls)
  decide (cls ≤ 14 ∨ cls = 0xFE) && decide (minPx ≤ px) && (of32 minScore).le (of32 sc)

/-! ### Comparison (R424, R425) -/

/-- The first stage below a depth at which two reports differ; 0xFF for the summary (R425, R431). -/
def firstDiff (a b : Report) (depth : Nat) : Option Nat :=
  let below := fun (p : Nat × Nat) => depth == 255 || decide (p.1 < depth)
  let bad := (a.rcd.sigs.filter below).filter fun p => !b.rcd.sigs.contains p
  let miss := (b.rcd.sigs.filter below).filter fun p => !a.rcd.sigs.any fun q => q.1 == p.1
  match (bad ++ miss).map (·.1) with
  | [] => if depth = 255 ∧ a.summary ≠ b.summary then some 0xFF else none
  | p :: ps => some (ps.foldl min p)

/-- The verdict that a report alone gives (R306, R307): flag [3] where its trailing miss is not re-run. -/
def plainVerdict (r : Report) (flags : Nat) : Verdict := ⟨b01 r.rcd.flagged, flags, some r⟩

/-! ### Rings -/

/-- A verdict ring at rest. -/
def VringSt.closed : VringSt := { opened := false, recs := [], trailer := none, nextKey := [] }

/-- Records of a block (R310). -/
def blockRecs (v : VringSt) : Nat := if v.trailer.isSome then 63 else 64

namespace State

def vring (s : State) (r : Nat) : VringSt := tabGet (fun _ => VringSt.closed) s.vrings r
def setVring (s : State) (r : Nat) (v : VringSt) : State := { s with vrings := tabPut (fun _ => VringSt.closed) s.vrings r v }

/-- A set of a job changed. -/
def mapSet (s : State) (j num : Nat) (f : SetSt → SetSt) : State :=
  match s.job j with
  | none => s
  | some x => s.setJob j (some { x with sets := x.sets.map fun t => if t.num = num then f t else t })

/-- A cell of a set changed. -/
def mapCell (s : State) (j num i : Nat) (f : CellSt → CellSt) : State :=
  s.mapSet j num fun t => match t.cells[i]? with
    | some c => { t with cells := setAt t.cells i (f c) }
    | none => t

/-- The host address of a place of the open block, and its phase (R514). -/
def vringPlace (s : State) (r i : Nat) : Nat :=
  let p := pxVr r
  let n := s.getF p PX_VR_WR_blk_wr
  s.get64 p PX_VR_BASE_LO_addr_lo PX_VR_BASE_HI_addr_hi / 4096 * 4096 + n % 2 ^ s.getF p PX_VR_CFG_depth_log2 * 4096 + 64 * i
def vringPhase (s : State) (r : Nat) : Nat :=
  (s.getF (pxVr r) PX_VR_WR_blk_wr / 2 ^ s.getF (pxVr r) PX_VR_CFG_depth_log2 + 1) % 2

/-- A free record place exists, or a block can be opened (R312, R515). -/
def vringRoom (s : State) (r : Nat) : Bool :=
  let p := pxVr r
  s.flag p PX_VR_CFG_en && ((s.vring r).opened ||
    decide ((s.getF p PX_VR_WR_blk_wr + 2 ^ 32 - s.getF p PX_VR_RD_blk_rd) % 2 ^ 32 < 2 ^ s.getF p PX_VR_CFG_depth_log2))

/-- The open block closes (R310, R311, R515): EMPTY records in its unused places, the trailer, blk_wr, and event bit 0. -/
def closeBlock (s : State) (r : Nat) : State :=
  let v := s.vring r
  if !v.opened then s
  else
    let p := pxVr r
    let ph := s.vringPhase r
    -- an EMPTY record: status and top_class 0xFF, and the phase
    let empty := zeros 6 ++ leBytes 1 0xFF ++ zeros 8 ++ leBytes 1 0xFF ++ zeros 47 ++ leBytes 1 ph
    let used := v.recs.length
    let fill := List.replicate (blockRecs v - used) empty
    let s1 := fill.zipIdx.foldl (fun s e => s.pcieWr (s.vringPlace r (used + e.2)) e.1) s
    let s2 := match v.trailer with
      | none => s1
      | some key =>
        let head := leBytes 8 (s.getF p PX_VR_WR_blk_wr) ++ leBytes 2 r ++ leBytes 2 used ++ zeros 20
        s1.pcieWr (s1.vringPlace r 63) (head ++ hmac key ((v.recs ++ fill).flatten ++ head))
    let s3 := (s2.setVring r { v with opened := false, recs := [], trailer := none }).wrapF p PX_VR_WR_blk_wr
    s3.raiseIf (s3.flag p PX_VR_CFG_irq_en) p 0

/-- A record goes to the next place of a ring that has room (R514): a block opens for the first, a full block closes. -/
def putRecord (s : State) (r : Nat) (body : List Byte) : State :=
  let v := s.vring r
  let v1 := if v.opened then v
    else { v with opened := true, recs := [], trailer := if s.flag (pxVr r) PX_VR_CFG_trailer then some v.nextKey else none }
  let raw := body.take 63 ++ leBytes 1 (s.vringPhase r)
  let s1 := (s.pcieWr (s.vringPlace r v1.recs.length) raw).setVring r { v1 with recs := v1.recs ++ [raw] }
  if blockRecs v1 ≤ v1.recs.length + 1 then s1.closeBlock r else s1

/-- Rings whose last verdict of the set is written close their block (R310), and the set is complete when every verdict is
(R317); with the link down no block closes (R518). -/
def finishSet (s : State) (j num : Nat) (rings : List Nat) : State :=
  match s.job j with
  | none => s
  | some x =>
    match x.sets.find? (fun t => t.num == num) with
    | none => s
    | some t =>
      let s1 := rings.foldl (fun s r => if s.link.up && ringDone x t r then s.closeBlock r else s) s
      if setDone x t && t.tref.isSome && !t.complete then (s1.mapSet j num fun t => { t with complete := true }).raise (feSlm j) 1 else s1

/-! ### Markers, crops and captures -/

/-- The marker requests of a verdict, in table order, at most one for each marker (R314). -/
def markRequests (x : JobSt) (b : List Byte) : List MarkerRule :=
  x.blk.markers.foldl (fun l m =>
    if l.any (fun k => k.marker == m.marker) || !ruleMeets b m.cls m.minPx m.minScore then l else l ++ [m]) []

/-- The data of a crop: its planes, each cut to the crop's rows and columns (R315, R490). -/
def cropData (s : State) (i : StripeInfo) (xl w yt h : Nat) : List Byte :=
  let hh := geomH i.geom
  let fmt := storeFmt i.store
  let b := sampleBytes fmt
  let base := bufAddr i.geom i.store i.bufWord i.buf + 256 + 16 * hh
  (List.range (storeChans i.store)).flatMap fun ch => (List.range h).flatMap fun r =>
    s.stripeRd (base + (ch * hh + yt + r) * linePitch (geomPx i.geom) fmt + (xl : Nat) * b) (w * b)

/-- A span of a length centred at a point, clipped to 0 to n − 1: its start and length (R315). -/
def clipSpan (centre : Int) (len n : Nat) : Nat × Nat :=
  let a : Int := centre - (len / 2 : Nat)
  let lo := max a 0
  let hi := min (a + len) n
  if hi ≤ lo then (0, 0) else (lo.toNat, (hi - lo).toNat)

/-- A dropped crop (R315, R489). -/
def cropDrop (s : State) (j : Nat) : State := (s.satF (feSlm j) FE_SLM_DROP_crops).raise (feSlm j) 6

/-- An archive record enters the crop area (R489, R490), or is dropped for lack of room. -/
def queueCrop (s : State) (j : Nat) (hdr data : List Byte) : State × Bool :=
  let units := cdiv (64 + data.length + 16) 4096
  let held := (s.store.crops.map (·.units)).foldl (· + ·) 0
  let area := s.getF nsCommonPage NS_STG_SIZE_crop_mib * 2 ^ 20
  if area < (held + units) * 4096 then
    (((s.satF nsCommonPage NS_ARC_STAT_dropped).raise nsCommonPage 2).cropDrop j, false)
  else
    let body := hdr ++ data
    let img := body ++ zeros (units * 4096 - body.length)
    let base := s.getF nsCommonPage NS_STG_BASE_base * 64
    let at' := s.store.cropPos
    let cut := area - at'
    let s1 := (s.gdWr (base + at') (img.take cut)).gdWr base (img.drop cut)
    let st := { s1.store with crops := s1.store.crops ++ [⟨at', units⟩], cropPos := (at' + units * 4096) % max area 1 }
    (({ s1 with store := st }).satF nsCommonPage NS_ARC_STAT_queued, true)

/-- The first crop rule that matches queues one crop (R315). -/
def crop (s : State) (j num i : Nat) (d : Derived) (b : List Byte) (stamp enc0 rinkByte : Nat) : State × Bool :=
  match s.job j with
  | none => (s, false)
  | some x =>
    match x.sets.find? (fun t => t.num == num), x.blk.crops.find? (fun c => ruleMeets b c.cls c.minPx c.minScore) with
    | some t, some c =>
      let e := entOf x t i
      match memberOf t e.piste, x.blk.pistes[e.piste]? with
      | some m, some p =>
        if x.blk.cropMax ≤ t.crops then (s.cropDrop j, false)
        else
          let info := m.info
          let xc : Int := e.x0 + d.x * p.sx + p.sx / 2
          let yc : Int := (d.y * p.sy + p.sy / 2 : Nat) - (p.shift : Int)
          let (xl, w) := clipSpan xc c.w (geomPx info.geom)
          let (yt, h) := clipSpan yc c.h (geomH info.geom)
          let data := s.cropData info xl w yt h
          let fmt := storeFmt info.store
          let hdr := leBytes 4 0x52435841 ++ leBytes 1 1 ++ leBytes 1 x.owner ++ leBytes 2 (cdiv (64 + data.length + 16) 4096) ++ zeros 16
            ++ leBytes 8 stamp ++ leBytes 4 info.seq ++ leBytes 1 info.stream ++ leBytes 1 (storeChans info.store)
            ++ leBytes 1 (sampleBytes fmt) ++ leBytes 1 d.top ++ leBytes 2 xl ++ leBytes 2 w ++ leBytes 2 yt ++ leBytes 2 h
            ++ leBytes 4 d.score ++ leBytes 4 enc0 ++ leBytes 1 t.plan ++ leBytes 1 rinkByte ++ zeros 2 ++ leBytes 4 data.length
          let (s1, ok) := s.queueCrop j hdr data
          (if ok then s1.mapSet j num fun t => { t with crops := t.crops + 1 } else s1, ok)
      | _, _ => (s, false)
    | _, _ => (s, false)

/-- The capture of a verdict (R364 to R366): the codes that the emitter read with the primary's summary. -/
def capture (s : State) (j num i : Nat) (d : Derived) (stamp : Nat) : State :=
  match s.job j with
  | none => s
  | some x =>
    match x.sets.find? (fun t => t.num == num), x.adapt with
    | some t, some a =>
      match (t.cells[i]?).bind (·.rep) with
      | none => s
      | some r =>
        if a.desc.capture && decide (d.top ≤ 14) && bit a.desc.classMask d.top && decide (t.caps < a.desc.capMax) then
          let e := entOf x t i
          let hdr := leBytes 4 r.rcd.seq ++ leBytes 1 r.rcd.stream ++ leBytes 1 d.top ++ leBytes 2 e.x0 ++ leBytes 2 d.x ++ leBytes 2 d.y
            ++ leBytes 1 r.featE ++ leBytes 1 a.desc.actZ ++ leBytes 1 r.rcd.bank ++ zeros 1 ++ leBytes 8 stamp ++ leBytes 4 a.caps
            ++ zeros 36
          let slot := 64 * a.desc.capBase + a.caps % 2 ^ a.desc.capLog2 * (64 + r.feat.length)
          let s1 := (s.gdWr slot (hdr ++ r.feat)).wrapF (feSlm j) FE_SLM_ADCAP_written
          let s2 := s1.setJob j (some { x with adapt := some { a with caps := (a.caps + 1) % 2 ^ 32 } })
          s2.mapSet j num fun t => { t with caps := t.caps + 1 }
        else s
    | _, _ => s

/-! ### Writing a verdict -/

/-- The gate that a verdict is held to: that of the cell, or of the copy or re-run that it is made from (R306). -/
def verdictGate (t : SetSt) (i : Nat) (v : Verdict) : Nat :=
  let own := match t.cells[i]? with | some c => c.gate | none => 0
  match v.src with
  | none => own
  | some r =>
    match t.cells[r.rcd.cell]? with
    | none => own
    | some c => if r.rcd.kind = 2 ∨ r.rcd.kind = 3 then (match c.rerun with | some e => e.gate | none => c.gate) else c.gate

/-- The verdict of primary entry i is written (R306 to R310), or not written with the link down (R518), or dropped (R312). -/
def writeVerdict (s : State) (j num i : Nat) (v : Verdict) : State :=
  match s.job j with
  | none => s
  | some x =>
    match x.sets.find? (fun t => t.num == num) with
    | none => s
    | some t =>
      let e := entOf x t i
      let p := x.blk.pistes.getD e.piste { stream := 0, ring := 0, shift := 0, sx := 1, sy := 1 }
      let m := memberOf t e.piste
      let px := match m with | some m => geomPx m.info.geom | none => s.getF (feStrm p.stream) FE_STRM_GEOM_line_px
      let seq := match m with | some m => m.info.seq | none => (s.getF (feStrm p.stream) FE_STRM_SEQ_seq + 1) % 2 ^ 32
      let period := x.blk.period / max 1 (match m with | some m => geomH m.info.geom | none => 1)
      let stamp := match m with | some m => (m.info.stamp + 2 ^ 64 - p.shift * period % 2 ^ 64) % 2 ^ 64 | none => 0
      let enc0 := match m with | some m => m.info.enc0 | none => 0
      let pad := match m with | some m => m.info.hasPad | none => false
      let sm := match v.src with | some r => r.summary | none => []
      let d := derive' sm
      let good := decide (v.status ≤ 1) && v.src.isSome
      let rinkByte := match v.src with | some r => r.rink + s.node * 16 | none => 0
      let gate := verdictGate t i v
      let room := s.vringRoom p.ring
      let miss := fun (s : State) =>
        if v.status = 2 then s.satF (feSlm j) FE_SLM_MISS_missed else if v.status = 3 then s.satF (feSlm j) FE_SLM_MISS_lost else s
      let s0 := miss (s.mapCell j num i fun c => { c with done := true })
      let s1 :=
        if s0.link.up && !room then
          ((((s0.satF (feSlm j) FE_SLM_DROP_verdicts).raise (feSlm j) 5).satF (pxVr p.ring) PX_VR_DROP_count).raise (pxVr p.ring) 1)
        else
          let marks := if good then markRequests x sm else []
          let s1 := marks.foldl (fun s k => s.markerEnqueue k.marker
            ⟨k.mode == 1, if k.mode = 1 then ofSigned 32 (enc0 + k.offset) else ofSigned 64 (stamp + k.offset)⟩) s0
          let (s2, cropped) := if good then s1.crop j num i d sm stamp enc0 rinkByte else (s1, false)
          let flags := v.flags + b01 pad * 16 + b01 (match v.src with | some r => r.rcd.flagged | none => false) * 32
          let mid := if good then
              leBytes 1 d.top ++ leBytes 8 stamp ++ leBytes 4 enc0 ++ leBytes 4 d.score ++ leBytes 2 d.x ++ leBytes 2 d.y
                ++ leBytes 2 d.mask ++ leBytes 1 rinkByte ++ zeros 1 ++ leBytes 4 d.defect ++ leBytes 4 d.pixels
            else leBytes 1 0xFF ++ zeros 32
          let body := leBytes 4 seq ++ leBytes 1 p.stream ++ leBytes 1 t.plan ++ leBytes 1 v.status ++ leBytes 1 flags ++ leBytes 2 e.x0
            ++ leBytes 2 e.width ++ leBytes 2 (min e.width (px - e.x0)) ++ leBytes 1 p.shift ++ mid ++ leBytes 8 gate
            ++ leBytes 4 (ofSigned 32 ((s.ns : Int) - gate)) ++ leBytes 2 ((marks.map (·.marker)).foldl setBit 0)
            ++ leBytes 1 (b01 cropped)
          if s2.link.up then (s2.putRecord p.ring body).countEvt (feSlm j) 0x11 1 else s2.satF pxCommonPage PX_STAT_verdicts
      let s2 := if good then s1.capture j num i d stamp else s1
      s2.finishSet j num [p.ring]

/-! ### Which verdict a cell gets -/

/-- Two copies compared (R425): the verdict, and the effects of a difference (R418, R431). -/
def comparePair (s : State) (j : Nat) (a b : Report) (depth : Nat) : State × Verdict :=
  match firstDiff a b depth with
  | none => (s, plainVerdict a 1)
  | some st =>
    let s1 := ((s.satF (feSlm j) FE_SLM_REPL_mismatches).setF (feSlm j) FE_SLM_REPL_stage st)
    if depth = 255 ∧ a.rcd.flagged ≠ b.rcd.flagged then
      let u := if a.rcd.flagged then b else a
      (((s1.satF (feSlm j) FE_SLM_REPL_recovered).chargeDomain (a.rink / 4) 1), ⟨0, 0, some u⟩)
    else
      ((((s1.raise (feSlm j) 8).postRecord (feSlm j) 0x0702 0xFF)).chargeDomain (a.rink / 4) 1, ⟨1, 2, some a⟩)

/-- What two copies give once it is settled (R425): `none` while a report may still be on time. -/
def settlePair (s : State) (j : Nat) (a b : Option Report) (aPast bPast : Bool) (depth : Nat) : Option (State × Option Verdict) :=
  match a, b with
  | some a, some b => let (t, v) := s.comparePair j a b depth; some (t, some v)
  | _, _ =>
    if !(aPast && bPast) then none
    else match a, b with
      | some a, _ => some (s, some (plainVerdict a 0))
      | none, some b => some (s, if depth = 255 then some (plainVerdict b 0) else none)
      | none, none => some (s, none)

/-- The verdict of a cell's original run, once it is settled (R297, R298, R425); flag [3] where a trailing miss is not re-run. -/
def originalVerdict (s : State) (j : Nat) (x : JobSt) (t : SetSt) (i : Nat) : Option (State × Verdict) :=
  match t.cells[i]? with
  | none => none
  | some c =>
    let lost := ⟨if c.lost then 3 else 2, 0, none⟩
    let missFlag := fun (v : Verdict) =>
      match v.src with
      | some r => if r.rcd.miss && c.rerun.isNone then { v with flags := v.flags ||| 8 } else v
      | none => v
    match (copyOf x t i).bind (fun k => t.cells[k]?) with
    | none =>
      match c.rep with
      | some r => some (s, missFlag (plainVerdict r 0))
      | none => if c.passed then some (s, lost) else none
    | some k =>
      match s.settlePair j c.rep k.rep c.passed k.passed (depthOf x t (entOf x t i).piste) with
      | none => none
      | some (s1, some v) => some (s1, missFlag v)
      | some (s1, none) => some (s1, lost)

/-- The verdict of a re-run, once it is settled (R305, R426): the held one with flag [3] where none is on time. -/
def rerunVerdict (s : State) (j : Nat) (x : JobSt) (t : SetSt) (i : Nat) (e : Extra) (held : Verdict) : Option (State × Verdict) :=
  let late : Verdict := { held with flags := held.flags ||| 8 }
  match ((copyOf x t i).bind (fun k => t.cells[k]?)).bind (·.rerun) with
  | none =>
    match e.rep with
    | some r => some (s, plainVerdict r 4)
    | none => if e.passed then some (s, late) else none
  | some k =>
    match s.settlePair j e.rep k.rep e.passed k.passed (depthOf x t (entOf x t i).piste) with
    | none => none
    | some (s1, some v) => some (s1, { v with flags := v.flags ||| 4 })
    | some (s1, none) => some (s1, late)

/-- The verdict of a cell with a spot copy, once the copy is settled (R428). -/
def spotVerdict (s : State) (j : Nat) (x : JobSt) (t : SetSt) (e : Extra) (held : Verdict) : Option (State × Verdict) :=
  let depth := match planOf x t with | some q => q.spotDepth | none => 0
  match held.src, e.rep with
  | some a, some b =>
    match firstDiff a b depth with
    | none => some (s, { held with flags := held.flags ||| 1 })
    | some _ =>
      let s1 := ((s.satF (feSlm j) FE_SLM_SPOT_fails).raise (feSlm j) 9).postRecord (feSlm j) 0x0703 0xFF
      some (s1.chargeDomain (a.rink / 4) 1, { held with status := 1, flags := (clrBit held.flags 0) ||| 2 })
  | _, _ => if e.passed then some (s, { held with flags := clrBit (clrBit held.flags 0) 1 }) else none

/-- The emitter goes on with a cell: the original verdict, held back while a re-run or a spot copy is awaited, then the verdict to
write (R304, R305, R308, R425 to R428). -/
def emitCell (s : State) (j num i : Nat) : State :=
  match s.job j with
  | none => s
  | some x =>
    match x.sets.find? (fun t => t.num == num) with
    | none => s
    | some t =>
      match t.cells[i]? with
      | none => s
      | some c =>
        if c.done then s
        else
          let base := match c.held with | some v => some (s, v) | none => s.originalVerdict j x t i
          match base with
          | none => s
          | some (s1, v) =>
            let s2 := s1.mapCell j num i fun c => { c with held := some v }
            let final := match c.rerun, c.spot with
              | some e, _ => s2.rerunVerdict j x t i e v
              | none, some e => if v.status ≤ 1 then s2.spotVerdict j x t e v else some (s2, v)
              | none, none => some (s2, v)
            match final with
            | none => s2
            | some (s3, w) => s3.writeVerdict j num i w

/-- The emitter takes the oldest cell that has become on time (R309). -/
def verdictEmit (s : State) (j : Nat) : State :=
  match s.job j with
  | none => s
  | some x =>
    match x.emits with
    | [] => s
    | (num, i) :: rest => (s.setJob j (some { x with emits := rest })).emitCell j num i

end State

/-- VERDICT_EMIT (R308). -/
def execVerdictEmit (j : Fin 4) (s : State) : Host.Outcome State Fault Refusal := s.eng (s.verdictEmit j)

end Sys2Proof.Machine
end

