-- ==== Sys2Proof/Machine/Slalom.lean ====
section
/-! DEFINITION. Slalom (R283 to R305, R316, R425 to R428): stripe sets and their reference, the release of cells, gates, reports
and re-runs, spot checks, the switch of plan, and the release of stripe buffers. -/

namespace Sys2Proof.Machine

/-! ### Sets -/

/-- A cell entry at the opening of its set. -/
def CellSt.new (i gate : Nat) : CellSt :=
  { cell := i, gate := gate, released := false, gone := false, lost := false, rep := none, passed := false, rerun := none
    spot := none, held := none, done := false }

/-- The spot check picks of the set whose block starts with LFSR value `v` (R427): for each logical rink with non-replica cells, in
ascending order, the next LFSR value picks one of them. -/
def spotPicks (q : Plan) (v : Nat) : List Nat :=
  ((List.range q.rinks.length).foldl (fun (a : List Nat × Nat) r =>
    let mine := (List.range q.cells.length).filter fun i =>
      match q.cells[i]? with | some e => e.rink == r && !e.replica | none => false
    if mine.isEmpty then a
    else
      let w := lfsr16 a.2
      (a.1 ++ [mine.getD (w % mine.length) 0], w)) ([], v)).1

/-- The spot picks of set `num` under a plan, with the LFSR and the pick of the block (R427). -/
def spotFor (x : JobSt) (q : Plan) (num : Nat) : List Nat × Nat × Nat :=
  if q.spotDepth = 0 ∨ q.spotN < 2 ∨ num < x.planStart then ([], x.lfsr, x.spotPick)
  else
    let i := (num - x.planStart) % q.spotN
    let (l, p) := if i = 0 then (lfsr16 x.lfsr, x.lfsr % q.spotN) else (x.lfsr, x.spotPick)
    (if i = p then spotPicks q l else [], l, p)

/-- The cells of a set under a plan, none released, with their gates (R285, R301). -/
def newCells (q : Plan) (ref sw : Nat) : List CellSt := q.cells.zipIdx.map fun e => .new e.2 (ref + e.1.gateOff + sw)

/-- The last gate of a physical rink in a set (R304, R427). -/
def lastGate (x : JobSt) (t : SetSt) (n : Nat) : Nat :=
  (t.cells.filter fun c => entRink x t c.cell == n).foldl (fun m c => max m c.gate) 0

/-- The gates of a set follow its reference: cells, then re-runs and spot copies (R285, R304, R427). -/
def setGates (x : JobSt) (t : SetSt) (ref : Nat) : SetSt :=
  let t1 := { t with cells := t.cells.map fun c => { c with gate := ref + (entOf x t c.cell).gateOff + t.sw } }
  let upd := fun (e : Extra) => { e with gate := lastGate x t1 e.rink }
  { t1 with cells := t1.cells.map fun c => { c with rerun := c.rerun.map upd, spot := c.spot.map upd } }

/-- The distance of a stamp from a set's anchor. -/
def anchorDist (t : SetSt) (stamp : Nat) : Nat := ((stamp : Int) - t.anchor).natAbs

/-- The set that a stripe of another piste joins (R284): within P_s / 2 of its anchor, the nearest, the earlier on a tie. -/
def joinSet (x : JobSt) (piste stamp : Nat) : Option SetSt :=
  (x.sets.filter fun t => decide (2 * anchorDist t stamp ≤ x.blk.period) && (memberOf t piste).isNone).foldl (fun m t =>
    match m with
    | none => some t
    | some u => if anchorDist t stamp < anchorDist u stamp then some t else some u) none

/-- A record is of a set of a job's rink. -/
def recOf (r : CellRec) (num i kind : Nat) : Bool := r.set == num && r.cell == i && r.kind == kind

namespace State

/-- The rounds of a rink in a set grow by one cell (R304, R427). -/
def growRink (s : State) (n num : Nat) : State :=
  let r := s.rink n
  if r.set = some num then s.setRink n { r with total := r.total + 1 } else s

/-- Cells of a rink that will not be released leave its rounds (R263). -/
def dropCells (s : State) (x : JobSt) (t : SetSt) (is : List Nat) : State :=
  if t.skip then s else is.foldl (fun s i => s.fewerCells (entRink x t i) t.num) s

/-- The buffer of a member or handed stripe is free once no job holds it or has still to take it (R316, R616). -/
def freeStripe (s : State) (i : StripeInfo) : State :=
  let held := s.jobs.any fun e => match e.2 with
    | some x => x.sets.any fun t => t.members.any fun m => m.held && m.info.stream == i.stream && m.info.seq == i.seq
    | none => false
  let waits := s.fe.handed.any fun h => h.stream == i.stream && h.seq == i.seq && !h.lost && !h.waiting.isEmpty
  if i.lost || held || waits then s else s.freeBuffer i.stream i.buf

/-- A job has taken a handed stripe. -/
def takeHanded (s : State) (j : Nat) (i : StripeInfo) : State :=
  let hs := s.fe.handed.map fun h => if h.stream = i.stream ∧ h.seq = i.seq then { h with waiting := h.waiting.filter (· != j) } else h
  { s with fe := { s.fe with handed := hs.filter fun h => !h.waiting.isEmpty } }

/-- A lead stripe opens a set (R284, R285): it takes the plan in force, or waits for the switch that is marked. -/
def openSet (s : State) (j : Nat) (i : StripeInfo) : State :=
  match s.job j with
  | none => s
  | some x =>
    let num := x.nextSet
    let pl := s.getF (feSlm j) FE_SLM_STAT_plan
    match x.blk.plans[pl]? with
    | none => s
    | some q =>
      let (anchor, cap) :=
        if !i.lost then (i.stamp, i.closeNs + x.blk.skew)
        else match x.sets.getLast? with
          | some p => (p.anchor + x.blk.period, (match p.tref with | some r => r | none => p.cap) + x.blk.period)
          -- no set before it: the stripe's own stamp anchors it (log 35)
          | none => (i.stamp, i.stamp + x.blk.period + x.blk.skew)
      let (spots, lfsr, pick) := spotFor x q num
      let t : SetSt :=
        { num := num, plan := pl, bind := x.bind, skip := num % max 1 q.div != 0, anchor := anchor, cap := cap, tref := none, sw := 0
          members := [], cells := newCells q cap 0, begun := false, bank := 0, firstPass := false, complete := false, crops := 0
          caps := 0, reruns := [], missed := [], spots := spots }
      s.setJob j (some { x with nextSet := num + 1, sets := x.sets ++ [t], lfsr := lfsr, spotPick := pick })

/-- A stripe joins a set (R284, R298, R302, R617). -/
def joinStripe (s : State) (j num piste : Nat) (i : StripeInfo) : State :=
  let s0 := s.takeHanded j i
  match s0.job j with
  | none => s0
  | some x =>
    match x.sets.find? (fun t => t.num == num) with
    | none => s0
    | some t =>
      let mine := (List.range t.cells.length).filter fun k => (entOf x t k).piste == piste
      let closed := mine.all fun k => match t.cells[k]? with | some c => c.gone | none => true
      let use := !t.skip && !i.lost && !closed
      let m : Member := { piste := piste, info := i, held := use, first := use && !x.seen.contains piste }
      let t1 := { t with
        members := t.members ++ [m]
        cells := if i.lost then t.cells.map (fun c => if mine.contains c.cell && c.rep.isNone then { c with lost := true } else c) else t.cells }
      let x1 := { x with
        sets := x.sets.map fun u => if u.num = num then t1 else u
        started := if x.started.contains piste then x.started else piste :: x.started
        seen := if use then piste :: x.seen else x.seen }
      let s1 := s0.setJob j (some x1)
      let fresh := mine.filter fun k => match t.cells[k]? with | some c => !c.gone && !c.lost | none => false
      let s2 := if i.lost then s1.dropCells x1 t1 fresh else s1
      if use then s2 else s2.freeStripe i

/-- Handed stripes join their sets, in order; one that closes before its lead stripe waits, and one older than every set joins none
(R284; log 35). -/
def joinAll (s : State) (j : Nat) : State :=
  let one := fun (s : State) (i : StripeInfo) =>
    match s.job j with
    | none => s
    | some x =>
      match x.blk.pistes.findIdx? (fun p => p.stream == i.stream) with
      | none => s.takeHanded j i
      | some 0 => let s1 := s.openSet j i; s1.joinStripe j x.nextSet 0 i
      | some p =>
        match joinSet x p i.stamp with
        | some t => s.joinStripe j t.num p i
        | none =>
          match x.sets.getLast? with
          | some t => if 2 * (i.stamp : Int) + x.blk.period < 2 * (t.anchor : Int) then (s.takeHanded j i).freeStripe i else s
          | none => s
  let mine := s.fe.handed.filter fun i => i.waiting.contains j
  let leads := fun (i : StripeInfo) => match s.job j with
    | some x => (match x.blk.pistes[0]? with | some p => p.stream == i.stream | none => false)
    | none => false
  ((mine.filter leads) ++ (mine.filter fun i => !leads i)).foldl one s

/-! ### The set reference -/

/-- The records of a set in the rinks' queues take the gates of their cells (R285). -/
def regate (s : State) (j num : Nat) : State :=
  match s.job j with
  | none => s
  | some x =>
    match x.sets.find? (fun t => t.num == num) with
    | none => s
    | some t =>
      let gate := fun (r : CellRec) =>
        match t.cells[r.cell]? with
        | none => r.gate
        | some c =>
          let e := if r.kind = 4 then c.spot else if r.kind = 2 ∨ r.kind = 3 then c.rerun else none
          match e with | some e => e.gate | none => c.gate
      (s.rinksOf j).foldl (fun s n =>
        let r := s.rink n
        s.setRink n { r with recs := r.recs.map fun c => if c.set = num then { c with gate := gate c } else c }) s

/-- T_ref of set `num` becomes known (R285): its gates follow, FE_SLM_TREF shows it, and pistes whose first stripe has not closed
carry no cells in it (R617). -/
def fixTref (s : State) (j num ref : Nat) : State :=
  match s.job j with
  | none => s
  | some x =>
    match x.sets.find? (fun t => t.num == num) with
    | none => s
    | some t =>
      let t1 := { setGates x t ref with tref := some ref }
      let out := (List.range t1.cells.length).filter fun i =>
        let p := (entOf x t1 i).piste
        (memberOf t1 p).isNone && !x.started.contains p
      let t2 := { t1 with cells := t1.cells.map fun c => if out.contains c.cell then { c with gone := true, done := true } else c }
      let s1 := (s.mapSet j num fun _ => t2).regate j num
      let s2 := s1.dropCells x t2 out
      let s3 := if t2.begun ∧ s2.getF (feSlm j) FE_SLM_SET_set = num % 2 ^ 32 then
          s2.set64 (feSlm j) FE_SLM_TREF_LO_tref_lo FE_SLM_TREF_HI_tref_hi ref
        else s2
      s3.finishSet j num []

/-- T_ref of every set whose members have all closed, or whose cap has come (R285). -/
def slalomTick (s : State) (j : Nat) : State :=
  match s.job j with
  | none => s
  | some x =>
    x.sets.foldl (fun s t =>
      if t.tref.isSome then s
      else
        let all := (List.range x.blk.pistes.length).all fun p => match memberOf t p with | some m => !m.info.lost | none => false
        let last := t.members.foldl (fun m u => max m u.info.closeNs) 0
        if all then s.fixTref j t.num (min last t.cap) else if t.cap ≤ s.ns then s.fixTref j t.num t.cap else s) s

/-! ### Release -/

/-- The first release of a set (R287, R317, R376, R378): the weight bank is latched, a marked swap takes effect, and FE_SLM_SET
follows. -/
def beginSet (s : State) (j num : Nat) : State :=
  match s.job j with
  | none => s
  | some x =>
    let p := feSlm j
    let pending := match x.adapt with | some a => a.next | none => none
    let s1 := match x.adapt, pending with
      | some a, some b =>
        let s1 := ((s.setJob j (some { x with adapt := some { a with next := none, rollback := false } })).setF p FE_SLM_ADAPT_bank b).setF
          p FE_SLM_ADAPT_pend 3
        if a.rollback then s1 else s1.wrapF p FE_SLM_ADCNT_swaps
      | _, _ => s
    let bank := s1.getF p FE_SLM_ADAPT_bank
    let s2 := s1.mapSet j num fun t => { t with begun := true, bank := bank, firstPass := pending.isSome }
    let s3 := s2.setF p FE_SLM_SET_set num
    let s4 := match x.sets.find? (fun t => t.num == num) with
      | some t => (match t.tref with | some r => s3.set64 p FE_SLM_TREF_LO_tref_lo FE_SLM_TREF_HI_tref_hi r | none => s3)
      | none => s3
    s4.raise p 0

/-- A neighbour byte with its logical rink made physical, for a neighbour on this node (R267, R291). -/
def physNbr (s : State) (t : SetSt) (v : Nat) : Nat :=
  if bit v 7 ∧ bits v 5 4 = s.node then v / 16 * 16 + physRink t.bind (v % 16) % 16 else v

/-- The record of entry i of a set (R267, R287). -/
def mkRec (s : State) (x : JobSt) (t : SetSt) (m : Member) (i : Nat) : CellRec :=
  let e := entOf x t i
  { CellRec.none with
    seq := m.info.seq, stream := m.info.stream, plan := t.plan, pos := e.pos, x0 := e.x0, width := e.width
    valid := min e.width (geomPx m.info.geom - e.x0), left := s.physNbr t e.left, right := s.physNbr t e.right
    gate := match t.cells[i]? with | some c => c.gate | none => 0
    firstPass := t.firstPass || m.first || t.spots.contains i, bank := t.bank, set := t.num, cell := i, kind := b01 e.replica
    buf := m.info.buf, geom := m.info.geom, store := m.info.store, bufWord := m.info.bufWord }

/-- Core 0 of a rink has passed CELL_END for its last cell of a set (R304, R316). -/
def passedLast (s : State) (x : JobSt) (t : SetSt) (n : Nat) : Bool :=
  let r := s.rink n
  if r.set = some t.num then decide (r.total ≤ s.getF (rk n) RK_STATE_cells)
  else (t.cells.all fun c => entRink x t c.cell != n || c.released || c.gone || c.lost) && r.recs.all fun c => c.set != t.num

/-- Re-runs and spot copies granted to a rink in a set. -/
def grants (t : SetSt) (n : Nat) : Nat := tabGet (fun _ => 0) t.reruns n

/-- A re-run or spot copy may still be granted to a rink in a set (R304, R427). -/
def canGrant (s : State) (x : JobSt) (t : SetSt) (n : Nat) : Bool :=
  decide (grants t n < x.blk.rerunMax) && !s.passedLast x t n && (s.rink n).job.isSome

/-- A re-run or spot copy is granted to a rink. -/
def grant (s : State) (j num n : Nat) : State :=
  (s.mapSet j num fun t => { t with reruns := tabPut (fun _ => 0) t.reruns n (grants t n + 1) }).growRink n num

/-- The spot copy of a chosen cell goes to the partner (R427). -/
def spotCopy (s : State) (j num i : Nat) : State :=
  match s.job j with
  | none => s
  | some x =>
    match x.sets.find? (fun t => t.num == num) with
    | none => s
    | some t =>
      let lr := (entOf x t i).rink
      let partner := match planOf x t with | some q => (match q.rinks[lr]? with | some r => r.partner | none => 0xFF) | none => 0xFF
      let n := physRink t.bind partner
      if partner ≤ 15 ∧ s.canGrant x t n then
        (s.grant j num n).mapCell j num i fun c =>
          { c with spot := some { rink := n, gate := lastGate x t n, sent := false, rep := none, passed := false } }
      else s.satF (feSlm j) FE_SLM_SPOT_skipped

/-- Entry i of a set is released to its rink (R286). -/
def releaseCell (s : State) (j num i : Nat) : State :=
  let begun : Bool := match s.job j with
    | some x => (match x.sets.find? (fun t => t.num == num) with | some t => t.begun | none => true)
    | none => true
  let s1 := if begun then s else s.beginSet j num
  match s1.job j with
  | none => s1
  | some x =>
    match x.sets.find? (fun t => t.num == num) with
    | none => s1
    | some t =>
      match memberOf t (entOf x t i).piste with
      | none => s1
      | some m =>
        let r := s1.mkRec x t m i
        let s2 := ((s1.mapCell j num i fun c => { c with released := true }).pushRec (entRink x t i) r).countEvt (feSlm j) 0x10 1
        if t.spots.contains i then s2.spotCopy j num i else s2

/-- The record of a re-run or spot copy enters its rink's queue (R304, R427): scale mode 1, no neighbours. -/
def sendExtra (s : State) (j num i : Nat) (spot : Bool) : State :=
  match s.job j with
  | none => s
  | some x =>
    match x.sets.find? (fun t => t.num == num) with
    | none => s
    | some t =>
      match t.cells[i]?, memberOf t (entOf x t i).piste with
      | some c, some m =>
        match if spot then c.spot else c.rerun with
        | none => s
        | some e =>
          let r := { s.mkRec x t m i with
            firstPass := true, left := 0, right := 0, gate := e.gate
            kind := if spot then 4 else if (entOf x t i).replica then 3 else 2 }
          let s1 := s.mapCell j num i fun c =>
            if spot then { c with spot := some { e with sent := true } } else { c with rerun := some { e with sent := true } }
          s1.pushRec e.rink r
      | _, _ => s

/-- Rink n has cells of an earlier set still to come: a later set's wait behind them. -/
def owes (x : JobSt) (t : SetSt) (n : Nat) : Bool :=
  x.sets.any fun u => decide (u.num < t.num) && !u.skip && u.cells.any fun c =>
    (entRink x u c.cell == n && !c.released && !c.gone && !c.lost) ||
      [c.rerun, c.spot].any fun e => match e with | some e => e.rink == n && !e.sent && !e.passed | none => false

/-- A record of a set may enter rink n's queue (R268, R286, R301). -/
def roomFor (s : State) (x : JobSt) (t : SetSt) (n : Nat) : Bool :=
  decide (s.queued n < 16) && !owes x t n && (s.rink n).job.isSome

/-- The cells of one member stripe go out in cell-table order, as far as the queues have room (R286). -/
def releaseMember (s : State) (j num piste : Nat) : State :=
  match s.job j with
  | none => s
  | some x =>
    match x.sets.find? (fun t => t.num == num) with
    | none => s
    | some t =>
      ((List.range t.cells.length).foldl (fun (a : State × Bool) i =>
        if a.2 then a
        else match a.1.job j with
          | none => a
          | some y =>
            match y.sets.find? (fun t => t.num == num) with
            | none => a
            | some u =>
              match u.cells[i]? with
              | none => a
              | some c =>
                if (entOf y u i).piste ≠ piste ∨ c.released ∨ c.gone ∨ c.lost then a
                else if a.1.roomFor y u (entRink y u i) then (a.1.releaseCell j num i, false)
                else (a.1, true)) (s, false)).1

/-- Everything that can go to the rinks goes (R286, R304, R427); a set at or beyond a marked boundary waits for the switch (R301). -/
def releaseAll (s : State) (j : Nat) : State :=
  match s.job j with
  | none => s
  | some x =>
    let mine := x.sets.filter fun t => !t.skip && (match x.switch with | some w => decide (t.num < w.boundary) | none => true)
    mine.foldl (fun s t =>
      let s1 := t.members.foldl (fun s m => if m.info.lost then s else s.releaseMember j t.num m.piste) s
      (List.range t.cells.length).foldl (fun s i =>
        [false, true].foldl (fun s spot =>
          match s.job j with
          | none => s
          | some y =>
            match y.sets.find? (fun u => u.num == t.num) with
            | none => s
            | some u =>
              match (u.cells[i]?).bind (fun c => if spot then c.spot else c.rerun) with
              | some e => if !e.sent && !e.passed && s.roomFor y u e.rink then s.sendExtra j t.num i spot else s
              | none => s) s) s1) s

/-- Sets that are over leave: complete, no stripe held, no rink at work on them, and not the latest. -/
def pruneSets (s : State) (j : Nat) : State :=
  match s.job j with
  | none => s
  | some x =>
    let busy := fun (t : SetSt) => (s.rinksOf j).any fun n => (s.rink n).set == some t.num || (s.rink n).recs.any fun c => c.set == t.num
    let keep := fun (t : SetSt) => !t.complete || t.num + 1 == x.nextSet || t.members.any (·.held) || busy t ||
      x.emits.any fun e => e.1 == t.num
    s.setJob j (some { x with sets := x.sets.filter keep })

/-- A job that runs. -/
def running (s : State) (j : Nat) : Bool := match s.job j with | some x => !x.stopping | none => false

/-- CELL_RELEASE: stripes join their sets and cells are released (R284 to R287). -/
def cellRelease (s : State) (j : Nat) : State :=
  if !s.running j then s else ((((s.joinAll j).slalomTick j).releaseAll j).pruneSets j)

/-! ### Skipped sets -/

/-- Each cell of the oldest skipped set that is due gets its SKIPPED verdict (R302). -/
def setSkipped (s : State) (j : Nat) : State :=
  if !s.running j then s
  else
    let s1 := s.slalomTick j
    match s1.job j with
    | none => s1
    | some x =>
      let due := fun (t : SetSt) => t.skip && !t.complete && (match t.tref with | some r => decide (r ≤ s1.ns) | none => false) &&
        (match x.switch with | some w => decide (t.num < w.boundary) | none => true)
      match x.sets.find? due with
      | none => s1
      | some t =>
        ((List.range t.cells.length).foldl (fun s i =>
          let isOver := match t.cells[i]? with | some c => c.done | none => true
          if isOver || (entOf x t i).replica then s else s.writeVerdict j t.num i ⟨4, 0, none⟩) s1).pruneSets j

/-! ### Reports -/

/-- A report that is on time updates FE_SLM_SLACK (R318). -/
def slack (s : State) (j gate : Nat) : State :=
  let d : Int := (gate : Int) - s.ns
  if d < toSigned 32 (s.getF (feSlm j) FE_SLM_SLACK_slack) then s.setF (feSlm j) FE_SLM_SLACK_slack (satSigned 32 d) else s

/-- What the emitter reads with a completion report (R308, R364): the summary of the cell's buffer, and the codes at its top pixel
where the job captures the class. -/
def readReport (s : State) (x : JobSt) (t : SetSt) (n k : Nat) (c : CellRec) : Report :=
  let sum := match planOf x t with
    | some q =>
      let lr := match q.cells[c.cell]? with | some e => e.rink | none => 0
      let lr := if c.kind = 4 then (match q.rinks[lr]? with | some r => r.partner | none => lr) else lr
      match q.rinks[lr]? with
      | some r => s.spadRd n (r.sumBase + k % max 1 r.sumNbuf * r.sumStride) 256
      | none => zeros 256
    | none => zeros 256
  let d := derive' sum
  match x.adapt with
  | some a =>
    if a.desc.capture && decide (d.top ≤ 14) && bit a.desc.classMask d.top then
      let b := k % max 1 a.desc.featNbuf * a.desc.featStride
      let nIn := match a.desc.layers with | l :: _ => l.nIn | [] => 0
      let codes := (List.range nIn).flatMap fun p => s.spadRd n ((a.desc.feat + b + p * a.desc.featPc + d.y * a.desc.featPr + d.x) % 2 ^ 23) 1
      { rink := n, rcd := c, summary := sum, feat := codes ++ zeros (ru64 nIn - nIn)
        featE := le (s.spadRd n ((a.desc.featRs + b + d.y) % 2 ^ 23) 1) 0 1 }
    else { rink := n, rcd := c, summary := sum, feat := [], featE := 0 }
  | none => { rink := n, rcd := c, summary := sum, feat := [], featE := 0 }

/-- Slalom answers a miss bit (R304, R426): a re-run of the cell, and of its copy, or a refusal. -/
def missBit (s : State) (j num i : Nat) : State :=
  match s.job j with
  | none => s
  | some x =>
    match x.sets.find? (fun t => t.num == num) with
    | none => s
    | some t =>
      let p := primOf x t i
      let both := p :: (copyOf x t p).toList
      match t.cells[p]? with
      | none => s
      | some c =>
        if !x.blk.rerunEn || c.rerun.isSome then s
        else if both.all fun k => s.canGrant x t (entRink x t k) then
          let s1 := both.foldl (fun s k =>
            let n := entRink x t k
            (s.grant j num n).mapCell j num k fun c =>
              { c with rerun := some { rink := n, gate := lastGate x t n, sent := false, rep := none, passed := false } }) s
          (((s1.satF (feSlm j) FE_SLM_RERUN_granted).raise (feSlm j) 7).countEvt (feSlm j) 0x12 1).releaseAll j
        else s.satF (feSlm j) FE_SLM_RERUN_refused

/-- The emitter is told of a cell (R309). -/
def tellEmitter (s : State) (j num i : Nat) : State :=
  match s.job j with
  | none => s
  | some x => s.setJob j (some { x with emits := x.emits.filter (· != (num, i)) ++ [(num, i)] })

/-- A report that is on time (R296): kept for the emitter; a cell's first miss bit may get a re-run. -/
def onTime (s : State) (j : Nat) (x : JobSt) (t : SetSt) (r : Report) : State :=
  let c := r.rcd
  let i := c.cell
  let put := fun (e : Option Extra) => e.map fun e => { e with rep := some r }
  let s1 := s.mapCell j t.num i fun q =>
    if c.kind = 4 then { q with spot := put q.spot } else if c.kind ≤ 1 then { q with rep := some r } else { q with rerun := put q.rerun }
  let s2 := if c.miss && decide (c.kind ≤ 1) then s1.missBit j t.num i else s1
  s2.tellEmitter j t.num (primOf x t i)

/-- CELL_COMPLETION_REPORT: the oldest report of rink n reaches Slalom (R296, R297, R304). -/
def completionReport (s : State) (j n : Nat) : State :=
  match s.job j with
  | none => s
  | some x =>
    match x.reports.find? (fun r => r.1 == n) with
    | none => s
    | some (m, k, c) =>
      let s1 := s.setJob j (some { x with reports := x.reports.erase (m, k, c) })
      match x.sets.find? (fun t => t.num == c.set) with
      | none => s1
      | some t =>
        match t.cells[c.cell]? with
        | none => s1
        | some q =>
          let e := if c.kind = 4 then q.spot else if c.kind ≤ 1 then none else q.rerun
          let gate := match e with | some e => e.gate | none => q.gate
          let past := match e with | some e => e.passed | none => q.passed
          let judged := match t.tref with | some _ => gate | none => max gate s1.ns
          if past || q.lost || decide (judged < s1.ns) then s1
          else (s1.slack j gate).onTime j x t (s1.readReport x t n k c)

/-! ### Gates -/

/-- A gate of a job that has passed and still matters, as (gate, set, cell, 0 the cell itself, 1 its re-run, 2 its spot copy). -/
def dueGates (s : State) (x : JobSt) : List (Nat × Nat × Nat × Nat) :=
  let sets := x.sets.filter fun t => !t.skip && t.tref.isSome && (match x.switch with | some w => decide (t.num < w.boundary) | none => true)
  sets.flatMap fun t => (List.range t.cells.length).flatMap fun i =>
    match t.cells[i]?, t.cells[primOf x t i]? with
    | some c, some p =>
      let pair := (pairOf x t i).isSome
      if p.done then []
      else
        let own := if !c.passed && decide (c.gate < s.ns) && (c.rep.isNone || pair) then [(c.gate, t.num, i, 0)] else []
        let re := match c.rerun with
          | some e => if !e.passed && decide (e.gate < s.ns) && (e.rep.isNone || pair) then [(e.gate, t.num, i, 1)] else []
          | none => []
        let sp := match c.spot with
          | some e => if !e.passed && decide (e.gate < s.ns) && e.rep.isNone then [(e.gate, t.num, i, 2)] else []
          | none => []
        own ++ re ++ sp
    | _, _ => []

/-- The cell's own gate passes (R297, R298): GATE_MISSED unless it is lost or on time, once per set for each rink; a cell that never
entered its rink's queue leaves the rink's rounds. -/
def ownGate (s : State) (j : Nat) (x : JobSt) (t : SetSt) (i : Nat) (c : CellSt) : State :=
  let n := entRink x t i
  let away := c.rep.isNone && !c.released && !c.gone && !c.lost
  let s1 := s.mapCell j t.num i fun c => { c with passed := true, gone := c.gone || away }
  let s2 := match s1.job j with | some y => if away then s1.dropCells y t [i] else s1 | none => s1
  if c.rep.isSome || c.lost || t.missed.contains n then s2
  else ((s2.mapSet j t.num fun t => { t with missed := n :: t.missed }).raise (feSlm j) 2).postRecord (feSlm j) 0x0706 0xFF

/-- CELL_GATE: the earliest gate that has passed takes its effect, and the emitter goes on with the cell (R297, R298, R305, R425,
R426, R428). -/
def cellGate (s : State) (j : Nat) : State :=
  if !s.running j then s
  else
    let s1 := s.slalomTick j
    match s1.job j with
    | none => s1
    | some x =>
      let first := (s1.dueGates x).foldl (fun m g => match m with
        | none => some g
        | some h => if g.1 < h.1 then some g else some h) none
      match first with
      | none => s1
      | some (_, num, i, which) =>
        match x.sets.find? (fun t => t.num == num) with
        | none => s1
        | some t =>
          match t.cells[i]? with
          | none => s1
          | some c =>
            let past := fun (e : Option Extra) => e.map fun e => { e with passed := true }
            let s2 :=
              if which = 0 then s1.ownGate j x t i c
              else if which = 1 then s1.mapCell j num i fun c => { c with rerun := past c.rerun }
              else (s1.mapCell j num i fun c => { c with spot := past c.spot }).satF (feSlm j) FE_SLM_SPOT_late
            (s2.emitCell j num (primOf x t i)).pruneSets j

/-! ### Stripe buffers -/

/-- An input copy of an entry or of its re-run or spot copy is still owed (R316). -/
def copyOwed (s : State) (x : JobSt) (t : SetSt) (c : CellSt) : Bool :=
  let inRink := fun n kind => (s.rink n).recs.any fun r => recOf r t.num c.cell kind && !r.copied
  let n := entRink x t c.cell
  (!c.released && !c.gone && !c.lost) || inRink n (b01 (entOf x t c.cell).replica) ||
    (match c.rerun with | some e => (!e.sent && !e.passed) || inRink e.rink 2 || inRink e.rink 3 | none => false) ||
    (match c.spot with | some e => (!e.sent && !e.passed) || inRink e.rink 4 | none => false)

/-- Every condition of R316 holds for a member stripe. -/
def mayRelease (s : State) (x : JobSt) (t : SetSt) (m : Member) : Bool :=
  let mine := t.cells.filter fun c => (entOf x t c.cell).piste == m.piste
  (mine.all fun c => !s.copyOwed x t c) &&
    (x.blk.rerunMax == 0 || mine.all fun c => c.lost || c.gone || s.passedLast x t (entRink x t c.cell)) &&
    (x.blk.crops.isEmpty || mine.all fun c => (entOf x t c.cell).replica || c.done)

/-- STRIPE_RELEASE: Slalom releases the buffer of a member stripe (R316). -/
def stripeRelease (s : State) (j k seq : Nat) : State :=
  match s.job j with
  | none => s
  | some x =>
    let hit := x.sets.findSome? fun t => (t.members.find? fun m => m.held && m.info.stream == k && m.info.seq == seq).map fun m => (t, m)
    match hit with
    | none => s
    | some (t, m) =>
      if !s.mayRelease x t m then s
      else
        let s1 := s.mapSet j t.num fun t => { t with members := t.members.map fun u => if u.piste = m.piste then { u with held := false } else u }
        (s1.freeStripe m.info).pruneSets j

/-- A stripe whose buffer has lost a word (R327, R411): its cells that core 0 has not taken are withdrawn, every cell of it without a
report is lost, and its buffer is free. -/
def loseMember (s : State) (j k seq : Nat) : State :=
  match s.job j with
  | none => s
  | some x =>
    let hit := x.sets.findSome? fun t =>
      (t.members.find? fun m => !m.info.lost && m.info.stream == k && m.info.seq == seq).map fun m => (t, m)
    match hit with
    | none => s
    | some (t, m) =>
      let mine := t.cells.filter fun c => (entOf x t c.cell).piste == m.piste
      let s1 := (s.rinksOf j).foldl (fun s n => s.withdraw n k seq) s
      let kept := fun (s : State) (c : CellSt) => (s.rink (entRink x t c.cell)).set == some t.num
      let away := (mine.filter fun c => !c.released && !c.gone && !c.lost).map (·.cell)
      let s2 := s1.mapSet j t.num fun t => { t with
        members := t.members.map fun u => if u.piste = m.piste then { u with held := false, info := { u.info with lost := true } } else u
        cells := t.cells.map fun c =>
          if mine.any (fun q => q.cell == c.cell) && c.rep.isNone && !c.done then
            { c with lost := true, released := c.released && kept s1 c }
          else c }
      let s3 := s2.dropCells x t away
      if m.held then s3.freeStripe m.info else s3

/-! ### The switch of plan -/

/-- The rink images of a plan: address of the first, size, distance (R291, R301, R613). -/
def planImage (x : JobSt) (p : Nat) : Nat × Nat × Nat :=
  if p = 0 then x.img0
  else match x.blk.plans[p]? with
    | some q => (q.imageBase * 64, q.imageBytes, q.imageStride * 64)
    | none => (0, 0, 0)

/-- A physical rink takes its place in a plan (R264, R301, R322, R420, R613): image, program base, fetch-ahead depth, replica
partner; it loads group 0. -/
def bindRink (s : State) (j : Nat) (x : JobSt) (plan l : Nat) : State :=
  let n := physRink x.bind l
  let (base, bytes, stride) := planImage x plan
  let s1 := (s.spadWr n 0 (s.gddrRd (base + l * stride) bytes)).gdCount (base + l * stride) bytes false
  let s2 := s1.setF (rk n) RK_PROG_base x.progBase
  let copies := match x.blk.plans[plan]? with
    | some q => q.cells.any fun e => e.replica && (e.rink == l || e.rink == l ^^^ 1)
    | none => false
  let s3 := if copies then (s2.setF (rk n) RK_REPLICA_en 1).setF (rk n) RK_REPLICA_partner (physRink x.bind (l ^^^ 1))
    else (s2.setF (rk n) RK_REPLICA_en 0).setF (rk n) RK_REPLICA_partner 0
  let s4 := (List.range 8).foldl (fun s c => s.setF (clCore (8 * n + c)) CL_CFG_fahead x.fahead) (s3.setF (clRink n) CL_CFG_fahead x.fahead)
  let s5 := s4.setRink n { RinkSt.idle with job := some j, logical := l }
  (s5.setF (rk n) RK_STATE_group 0).setF (rk n) RK_STATE_state 1

/-- The multicast groups of a job follow a binding (R330). -/
def mapGroups (s : State) (j : Nat) (bind : List Nat) : State :=
  (List.range 16).foldl (fun s g =>
    let x := s.gond g
    if x.job ≠ j then s
    else
      let m := (List.range (32 * bind.length)).foldl (fun w i =>
        if bit x.logical i then setBit w (8 * physRink bind (i / 8) + i % 8) else w) 0
      s.setGond g { x with mapped := m, run := none }) s

/-- The rinks of a job are placed under a plan and a binding. -/
def bindPlan (s : State) (j : Nat) (x : JobSt) (plan : Nat) : State :=
  ((List.range (4 * x.bind.length)).foldl (fun s l => s.bindRink j x plan l) s).mapGroups j x.bind

/-- Every live rink of the job has finished its last set under the old plan (R301). -/
def switchReady (s : State) (j : Nat) (x : JobSt) (w : Switch) : Bool :=
  ((s.rinksOf j).all fun n =>
    let r := s.rink n
    r.set.isNone && r.recs.isEmpty && [1, 2, 4].contains (s.rkState n)) &&
  x.sets.all fun t => decide (w.boundary ≤ t.num) || t.skip || t.cells.all fun c =>
    (c.released || c.gone || c.lost) && [c.rerun, c.spot].all fun e => match e with | some e => e.sent || e.passed | none => true

/-- A set at or beyond the boundary is built again under the new plan (R301, R302). -/
def rebuildSet (s : State) (j num sw : Nat) : State :=
  match s.job j with
  | none => s
  | some x =>
    match x.sets.find? (fun t => t.num == num), x.blk.plans[s.getF (feSlm j) FE_SLM_STAT_plan]? with
    | some t, some q =>
      let skip := num % max 1 q.div != 0
      let (spots, lfsr, pick) := spotFor x q num
      let ref := match t.tref with | some r => r | none => t.cap
      let ms := t.members.map fun m =>
        -- a stripe that R302 has released already cannot be copied any more
        let m := if t.skip && !skip && !m.held then { m with info := { m.info with lost := true } } else m
        { m with held := m.held && !skip, first := !skip && !m.info.lost && !x.seen.contains m.piste }
      let t1 := { t with
        plan := s.getF (feSlm j) FE_SLM_STAT_plan, bind := x.bind, skip := skip, sw := sw, members := ms, cells := newCells q ref sw
        reruns := [], spots := spots }
      let cells := t1.cells.map fun c =>
        match memberOf t1 (entOf x t1 c.cell).piste with
        | some m => { c with lost := m.info.lost }
        | none => if t1.tref.isSome && !x.started.contains (entOf x t1 c.cell).piste then { c with gone := true, done := true } else c
      let s1 := s.setJob j (some { x with
        sets := x.sets.map fun u => if u.num = num then { t1 with cells := cells } else u
        seen := x.seen ++ (ms.filter (·.first)).map (·.piste), lfsr := lfsr, spotPick := pick })
      (t.members.filter fun m => m.held && skip).foldl (fun s m => s.freeStripe m.info) s1
    | _, _ => s

/-- PLAN_SWITCH: the rinks take the new plan's images, and the sets from the boundary on run under it (R289, R299 to R301, R303,
R330, R380). -/
def planSwitch (s : State) (j : Nat) : State :=
  match s.job j with
  | none => s
  | some x =>
    match x.switch with
    | none => s
    | some w =>
      match x.blk.plans[w.plan]? with
      | none => s
      | some q =>
        if x.stopping || !s.switchReady j x w then s
        else
          let p := feSlm j
          let live := (List.range 4).filter fun d => bit (s.getF p FE_SLM_STAT_live) d
          let doms := if w.byFence then x.domains else live
          let old := match x.blk.plans[s.getF p FE_SLM_STAT_plan]? with | some o => o.gateMax | none => 0
          let sw := (old - x.blk.period) + cdiv (planImage x w.plan).2.1 16
          let x1 := { x with
            domains := doms, bind := doms.take q.k, planStart := w.boundary, switch := none, seen := [] }
          let s1 := ((s.setJob j (some x1)).setF p FE_SLM_STAT_plan w.plan).setF p FE_SLM_STAT_switching 0
          let s2 := s1.bindPlan j x1 w.plan
          let s3 := match x.adapt with
            | some a => if s2.getF p FE_SLM_ADAPT_state = 3 then s2.setF p FE_SLM_ADAPT_state a.back else s2
            | none => s2
          (x.sets.filter fun t => decide (w.boundary ≤ t.num)).foldl (fun s t =>
            s.rebuildSet j t.num (if t.num = w.boundary then sw else 0)) s3

end State

/-! ### Register writes -/

/-- A write to FE_SLM_CTRL (R303, R318, R431). A force acts on what force_plan holds once the write's fields are in place (R12). -/
def slalomCtrlWrite (a : Agent) (j v : Nat) (s : State) : State :=
  let p := feSlm j
  let s1 := State.plainWrite a p 0x040 v s
  let s2 := if !bit v 12 then s1
    else ((((s1.setWord (p + 0x54) 0).setWord (p + 0x58) 0).setWord (p + 0x5C) 0).setWord (p + 0x60) 0x7FFFFFFF).setWord (p + 0x78) 0
      |>.setWord (p + 0x7C) 0
  if !bit v 11 then s2
  else
    let f := s2.getF p FE_SLM_CTRL_force_plan
    match s2.job j with
    | none => s2.pgErr a p 0x040 0x01 true
    | some x =>
      let others := (s2.jobs.filterMap fun e => match e.2 with | some y => if e.1 = j then none else some y.domains | none => none).flatten
      let live := (List.range 4).filter fun d => bit (s2.getF p FE_SLM_STAT_live) d && !others.contains d
      match x.blk.plans[f]? with
      | none => s2.pgErr a p 0x040 0x01 true
      | some q =>
        if !bit (s2.getF p FE_SLM_STAT_avail) f ∨ live.length < q.k ∨ x.stopping then s2.pgErr a p 0x040 0x01 true
        else match x.switch with
          | some w => if w.byFence then s2 else s2.markSwitch j f false
          | none => s2.markSwitch j f false

/-! ### The commands -/

/-- STRIPE_RELEASE (R316). -/
def execStripeRelease (j : Fin 4) (k : Fin 32) (seq : Word) (s : State) : Host.Outcome State Fault Refusal :=
  s.eng (s.stripeRelease j k seq.toNat)
/-- CELL_RELEASE (R286). -/
def execCellRelease (j : Fin 4) (s : State) : Host.Outcome State Fault Refusal := s.eng (s.cellRelease j)
/-- SET_SKIPPED (R302). -/
def execSetSkipped (j : Fin 4) (s : State) : Host.Outcome State Fault Refusal := s.eng (s.setSkipped j)
/-- CELL_COMPLETION_REPORT (R296). -/
def execCellCompletionReport (j : Fin 4) (n : Fin 16) (s : State) : Host.Outcome State Fault Refusal := s.eng (s.completionReport j n)
/-- CELL_GATE (R297). -/
def execCellGate (j : Fin 4) (s : State) : Host.Outcome State Fault Refusal := s.eng (s.cellGate j)
/-- PLAN_SWITCH (R301). -/
def execPlanSwitch (j : Fin 4) (s : State) : Host.Outcome State Fault Refusal := s.eng (s.planSwitch j)
/-- FORCE_PLAN (R303): a write of FE_SLM_CTRL with force set. -/
def execForcePlan (a : Agent) (j : Fin 4) (v : Word) (s : State) : Host.Outcome State Fault Refusal :=
  (s.guardedWrite a (feSlm j) 0x040 (setBit v.toNat 11) (slalomCtrlWrite a j)).done
/-- SLALOM_CLEAR (R318): a write of FE_SLM_CTRL with clr set. -/
def execSlalomClear (a : Agent) (j : Fin 4) (v : Word) (s : State) : Host.Outcome State Fault Refusal :=
  (s.guardedWrite a (feSlm j) 0x040 (setBit v.toNat 12) (slalomCtrlWrite a j)).done

end Sys2Proof.Machine
end

