-- ==== Sys2Proof/Machine/Moves.lean ====
section
/-! DEFINITION. DMA channels (R337 to R344) and windows (R346 to R353), and the paths of their data to GDDR6 (R386, R395, R396). -/

namespace Sys2Proof.Machine

/-- The page and the entry of window w (R358). -/
def winPage (w : Nat) : Nat := wnTab (w / 64)
def winEnt (w : Nat) : Nat := w % 64

namespace State

/-! ### GDDR6 as an agent reaches it -/

/-- The local space answers an access: it lies inside, and the initialisation of R389 is done. -/
def gddrReady (s : State) (a n : Nat) : Bool :=
  decide (a + n ≤ s.gddrEnd) && (!s.eccOn || s.flag mxCommonPage MX_STAT_init_done)

/-- The sealed regions that the host path sees as stored (R396). -/
def opaqueSeals (s : State) : List (Nat × Nat × Nat) := s.sealed.filter fun r => !s.flag mxCommonPage MX_SEALn_BASE_host_clear r.1

/-- Is the applying region of an address closed to the host path (R396)? -/
def hostSealed (s : State) (a : Nat) : Bool :=
  match sealOf s.sealed a with
  | some r => s.opaqueSeals.any fun q => q.1 == r
  | none => false

/-- The local space read over the host path, or by another agent (R396). -/
def gddrRdPath (s : State) (host : Bool) (a n : Nat) : List Byte :=
  if host && !s.opaqueSeals.isEmpty then
    (List.range n).map fun i => if s.hostSealed (a + i) then memByte s.gddr (a + i) else (s.gddrRd (a + i) 1).getD 0 0
  else s.gddrRd a n

/-- The local space written over the host path, or by another agent: what falls in a region closed to the host is dropped, counted
once (R396). -/
def gddrWrPath (s : State) (host : Bool) (a : Nat) (bs : List Byte) : State :=
  if host && (List.range bs.length).any (fun i => s.hostSealed (a + i)) then
    ((bs.zipIdx a).foldl (fun s p => if s.hostSealed p.2 then s else s.gddrWr p.2 [p.1]) s).satF mxCommonPage MX_SEAL_STAT_refused
  else s.gdWr a bs

/-- The local address of the transfer area (R488). -/
def xferBase (s : State) : Nat := s.getF nsCommonPage NS_STG_BASE_base * 64 + s.getF nsCommonPage NS_STG_SIZE_crop_mib * 2 ^ 20
def xferBytes (s : State) : Nat := s.getF nsCommonPage NS_STG_SIZE_xfer_mib * 2 ^ 20

/-! ### Windows -/

/-- A bit of WN_PENDk is set. -/
def winPend (s : State) (w : Nat) : State :=
  s.setF wnPage WN_PENDk_pend (setBit (s.getF wnPage WN_PENDk_pend (w / 32)) (w % 32)) (w / 32)

/-- The count is compared with the target (R352). -/
def winTarget (s : State) (w : Nat) : State :=
  if s.getF (winPage w) WN_ARR_count (winEnt w) = s.getF (winPage w) WN_TARGET_target (winEnt w) then (s.winPend w).raise wnPage 0 else s

/-- The first block of the oldest accepted write of a window lands (R352). -/
def winLand (s : State) (w : Nat) : State :=
  match s.move.winq.find? (fun x => x.win == w) with
  | none => s
  | some x =>
    let p := winPage w
    let e := winEnt w
    let blk := x.data.take 64
    let rest := x.data.drop 64
    let q := if rest.isEmpty then s.move.winq.erase x
      else s.move.winq.map fun y => if y = x then { x with off := x.off + 64, data := rest } else y
    let s1 := { s with move := { s.move with winq := q } }
    let s2 := if s1.flag p WN_CTRL_target e then s1.gdWr (s1.getF p WN_BASE_base e * 64 + x.off) blk
      else s1.spadWr (s1.getF p WN_CTRL_rink e) ((bits (s1.getF p WN_BASE_base e) 22 6 * 64 + x.off) % 2 ^ 23) blk
    (s2.wrapF p WN_ARR_count 1 e).winTarget w

/-- The oldest accepted write completes, to make room for another (R349). -/
def winDrainOne (s : State) : State :=
  match s.move.winq with
  | [] => s
  | x :: _ => (List.range (cdiv x.data.length 64)).foldl (fun s _ => s.winLand x.win) s

/-- A refused write: its code at most once per 1 µs for each window (R353). -/
def winRefuse (s : State) (w ev code : Nat) : State :=
  let s1 := s.raise wnPage ev
  let key := markKey wnPage code w
  if s1.rateOpen key 1000 then (s1.postRecord wnPage code 0xFF).rateMark key else s1.countEvt wnPage 0x03 1

/-- A write of 64 to 256 bytes at the window port from a node (R350): the state, and the code returned, 0 for accepted. -/
def winWrite (s : State) (node addr : Nat) (data : List Byte) : State × Nat :=
  let w := bits addr 61 54
  let off := bits addr 53 0
  let p := winPage w
  let e := winEnt w
  let st := s.getF p WN_CTRL_state e
  let peer := node != s.node
  if st = 0 ∨ s.flag p WN_CTRL_kind e ≠ peer ∨ (peer && !bit (s.getF p WN_CTRL_nodes e) node) then
    ((s.satF wnPage WN_STAT_nowin).winRefuse w 4 0x0307, 0x0307)
  else if st ≠ 1 then ((s.satF p WN_DROP_closed 1 e).winRefuse w 2 0x0302, 0x0302)
  else if 64 * s.getF p WN_SIZE_size e < off + data.length then ((s.satF p WN_DROP_range 1 e).winRefuse w 3 0x0306, 0x0306)
  else
    let s1 := if 16 ≤ s.move.winq.length then s.winDrainOne else s
    ({ s1 with move := { s1.move with winq := s1.move.winq ++ [⟨w, off, data⟩] } }, 0)

/-- A write has the size that a window takes (R350). -/
def winSized (n : Nat) : Bool := [64, 128, 192, 256].contains n

/-- Why an open is refused (R348, R358): 2 a reserved field set, 3 the rink's domain not live, 1 beyond the target or no size. -/
def openReason (s : State) (w : Nat) : Nat :=
  let p := winPage w
  let e := winEnt w
  let base := s.getF p WN_BASE_base e
  let size := 64 * s.getF p WN_SIZE_size e
  if s.flag p WN_CTRL_target e then
    if bits base 31 28 ≠ 0 then 2 else if size = 0 ∨ s.gddrEnd < base * 64 + size then 1 else 0
  else if base ≠ bits base 22 6 * 64 then 2
  else if s.domState (s.getF p WN_CTRL_rink e / 4) ≠ 0 then 3
  else if size = 0 ∨ 2 ^ 23 < base + size then 1 else 0

/-- The host may not write an entry that the Puppeteer opened (R347). -/
def winBarred (s : State) (a : Agent) (w : Nat) : Bool := a == .host && s.flag (winPage w) WN_CTRL_owner (winEnt w)

/-- An open that meets its conditions, or is refused (R348). -/
def winOpen (a : Agent) (w : Nat) (s : State) : State :=
  let p := winPage w
  let e := winEnt w
  match s.openReason w with
  | 0 => (((s.setF p WN_CTRL_state 1 e).setF p WN_CTRL_open 1 e).setF p WN_CTRL_owner (b01 (a == .puppeteer)) e).setF p WN_ARR_count 0 e
  | r => (((s.setF p WN_CTRL_open 0 e).setF wnPage WN_ERR_valid 1).setF wnPage WN_ERR_reason r).setF wnPage WN_ERR_window w

/-- A write to WN_CTRL (R347, R348). -/
def winCtrlWrite (a : Agent) (w v : Nat) (s : State) : State :=
  let p := winPage w
  let e := winEnt w
  let off := 0x800 + 0x20 * e
  let old := s.word (p + off)
  let same := bits v 27 18 = bits old 27 18
  let op := bit v 29
  if s.winBarred a w then s.pgErr a p off 0x02 true
  else if op && !s.enabled p && (s.getF p WN_CTRL_state e == 0 || s.getF p WN_CTRL_state e == 3) then s.refuse a p off
  else
    let take := fun (s : State) => (s.applyFields a p off ⟨0x800, 0x20, 64, [⟨27, 18, .rw, 0, .any⟩]⟩ v)
    match s.getF p WN_CTRL_state e with
    | 0 => if op then winOpen a w (take s) else take s
    | 1 => if !same then s.refuse a p off else if op then s else (s.setF p WN_CTRL_open 0 e).setF p WN_CTRL_state 2 e
    | 2 => if !same ∨ op then s.refuse a p off else s
    | _ =>
      let s1 := if same then s else (take s).setF p WN_CTRL_state 0 e
      if op then winOpen a w s1 else s1

/-- A write to WN_BASE or WN_SIZE (R347, R348). -/
def winFieldWrite (a : Agent) (w off v : Nat) (s : State) : State :=
  let p := winPage w
  if s.winBarred a w then s.pgErr a p off 0x02 true
  else match s.getF p WN_CTRL_state (winEnt w) with
    | 1 | 2 => s.refuse a p off
    | 3 => (plainWrite a p off v s).setF p WN_CTRL_state 0 (winEnt w)
    | _ => plainWrite a p off v s

/-- A write to WN_TARGET (R347, R352). -/
def winTargetWrite (a : Agent) (w v : Nat) (s : State) : State :=
  let off := 0x810 + 0x20 * winEnt w
  if s.winBarred a w then s.pgErr a (winPage w) off 0x02 true else (plainWrite a (winPage w) off v s).winTarget w

/-- The close of a window completes (R348). -/
def winCloseDone (s : State) (w : Nat) : State :=
  if s.getF (winPage w) WN_CTRL_state (winEnt w) = 2 ∧ (s.move.winq.all fun x => x.win != w) then
    ((s.setF (winPage w) WN_CTRL_state 3 (winEnt w)).raise wnPage 1).winPend w
  else s

/-! ### DMA channels -/

/-- The run of a channel. -/
def dmaRun (s : State) (c : Nat) : DmaRun := tabGet (fun _ => ⟨8, false, 0⟩) s.move.dma c
def setDma (s : State) (c : Nat) (r : DmaRun) : State :=
  { s with move := { s.move with dma := tabPut (fun _ => ⟨8, false, 0⟩) s.move.dma c r } }

/-- Slot numbers of a descriptor (R357). -/
def slotSrc (s : State) (c n : Nat) : Nat := s.get64 (dmCh c) DM_SLOTn_SRC_LO_addr_lo DM_SLOTn_SRC_HI_addr_hi n
def slotDst (s : State) (c n : Nat) : Nat := s.get64 (dmCh c) DM_SLOTn_DST_LO_addr_lo DM_SLOTn_DST_HI_addr_hi n

/-- The channel stops at a slot (R339). -/
def dmaStop (s : State) (c n : Nat) : State :=
  let s1 := ((s.setDma c ⟨8, false, 0⟩).setF (dmCh c) DM_CH_STAT_busy 0).setF (dmCh c) DM_CH_STAT_waiting 0
  ((s1.setF (dmCh c) DM_CH_STAT_slot n).setF dmCommonPage DM_BUSY_busy (clrBit (s1.getF dmCommonPage DM_BUSY_busy) c)).raise (dmCh c) 9

/-- The slot's trigger is met (R341). -/
def trigMet (s : State) (c n : Nat) : Bool :=
  let w := s.getF (dmCh c) DM_SLOTn_CTRL_trig_win n
  !s.flag (dmCh c) DM_SLOTn_CTRL_trig_en n ||
    decide (0 ≤ toSigned 32 (s.getF (winPage w) WN_ARR_count (winEnt w) + 2 ^ 32 - s.getF (dmCh c) DM_SLOTn_TRIG_target n))

/-- The channel reaches a slot (R339, R341): a READY slot is next to start, any other stops the channel. -/
def dmaReach (s : State) (c n : Nat) : State :=
  if s.getF (dmCh c) DM_SLOTn_CTRL_state n = 1 then
    let s1 := ((s.setDma c ⟨n, false, 0⟩).setF (dmCh c) DM_CH_STAT_busy 1).setF (dmCh c) DM_CH_STAT_slot n
    (s1.setF (dmCh c) DM_CH_STAT_waiting (b01 (!s1.trigMet c n))).setF dmCommonPage DM_BUSY_busy
      (setBit (s1.getF dmCommonPage DM_BUSY_busy) c)
  else s.dmaStop c n

/-- The slot after the one that has ended (R339). -/
def dmaNext (s : State) (c n : Nat) : State :=
  if n < 7 then s.dmaReach c (n + 1) else if s.flag (dmCh c) DM_CH_CTRL_wrap then s.dmaReach c 0 else s.dmaStop c 7

/-- Responses that a channel's writes to peers still await. -/
def peerWrites (s : State) (c : Nat) : Bool := (List.range 3).any fun p => (s.tz p).writes.any fun w => w.2 == c
def dropPeerWrites (s : State) (c : Nat) : State :=
  (List.range 3).foldl (fun s p => s.setTz p { s.tz p with writes := (s.tz p).writes.filter fun w => w.2 != c }) s

/-- A slot becomes BAD (R343, R344). -/
def dmaBad (s : State) (c n cause bytes : Nat) : State :=
  let p := dmCh c
  let s1 := ((((s.dropPeerWrites c).setF p DM_SLOTn_CTRL_state 3 n).setF p DM_SLOTn_CTRL_cause cause n).setF p DM_SLOTn_DONE_bytes bytes
    n).satF dmCommonPage DM_BAD_count
  if cause = 7 then s1.dmaStop c n else ((s1.raise p 8).postRecord p 0x0303 0xFF).dmaNext c n

/-- A host-path channel: its page's lock is not the Puppeteer's (R396). -/
def hostPath (s : State) (c : Nat) : Bool := s.getF (dmCh c) PG_LOCK_owner != 2

/-- Bytes o to o + n − 1 of a slot's source. -/
def slotRead (s : State) (c n o len : Nat) : List Byte × State :=
  let a := s.slotSrc c n + o
  match s.getF (dmCh c) DM_SLOTn_CTRL_src_space n with
  | 0 => (s.hostRd a len, s.pcieRdCount len)
  | 1 => (s.gddrRdPath (s.hostPath c) a len, s.gdCount a len false)
  | _ => (s.gddrRd (s.xferBase + a) len, s.gdCount (s.xferBase + a) len false)

/-- The first bytes of a slot moved to a destination that is no window, in requests of at most 512 bytes (R386). -/
def slotMove (s : State) (c n len : Nat) : State :=
  (List.range (cdiv len 512)).foldl (fun s i =>
    let m := min 512 (len - 512 * i)
    let (bs, s1) := s.slotRead c n (512 * i) m
    let a := s1.slotDst c n + 512 * i
    match s1.getF (dmCh c) DM_SLOTn_CTRL_dst_space n with
    | 0 => s1.pcieWr a bs
    | 1 => if a + m ≤ s1.gddrEnd then s1.gddrWrPath (s1.hostPath c) a bs else s1
    | _ => s1.gdWr (s1.xferBase + a) bs) s

/-- The cause with which a slot fails before any read (R343), 0 for none. -/
def slotFault (s : State) (c n : Nat) : Nat :=
  let p := dmCh c
  let cnt := s.getF p DM_SLOTn_CNT_count n
  if s.getF p DM_SLOTn_CTRL_src_space n = 3 ∨ cnt = 0 ∨ cnt % 64 ≠ 0 ∨ s.slotSrc c n % 64 ≠ 0 ∨ s.slotDst c n % 64 ≠ 0 then 6 else 0

/-- The source can be read (R389); the staging space is the transfer area alone (R488). -/
def slotReadable (s : State) (c n : Nat) : Bool :=
  let cnt := s.getF (dmCh c) DM_SLOTn_CNT_count n
  let inXfer := fun a => decide (a + cnt ≤ s.xferBytes) && s.gddrReady (s.xferBase + a) cnt
  (match s.getF (dmCh c) DM_SLOTn_CTRL_src_space n with
  | 1 => s.gddrReady (s.slotSrc c n) cnt
  | 2 => inXfer (s.slotSrc c n)
  | _ => true) && (s.getF (dmCh c) DM_SLOTn_CTRL_dst_space n != 2 || inXfer (s.slotDst c n))

/-- The cause of a window port's answer (R343, R527). -/
def winCause (code : Nat) : Nat := if code = 0x0302 then 3 else if code = 0x0306 then 5 else 4

/-- The writes of a slot to a window leave, 256 bytes at most in each: to the port of this node at once, or to a peer (R342, R350,
R522). -/
def slotToWindow (s : State) (c n : Nat) : State :=
  let cnt := s.getF (dmCh c) DM_SLOTn_CNT_count n
  let dst := s.slotDst c n
  let node := bits dst 63 62
  let parts := (List.range (cdiv cnt 256)).map fun i => (256 * i, min 256 (cnt - 256 * i))
  if node = s.node then
    let (s1, bad) := parts.foldl (fun (t : State × Option (Nat × Nat)) q =>
      match t.2 with
      | some _ => t
      | none =>
        let (bs, s1) := t.1.slotRead c n q.1 q.2
        let (s2, code) := s1.winWrite s1.node (dst + q.1) bs
        if code = 0 then (s2, none) else (s2, some (code, q.1))) (s, none)
    match bad with
    | some (code, o) => s1.dmaBad c n (winCause code) o
    | none => s1.setDma c ⟨n, true, cnt⟩
  else
    match s.routeTo node with
    | none => s.dmaBad c n 4 0
    | some p =>
      parts.foldl (fun s q =>
        let (bs, s1) := s.slotRead c n q.1 q.2
        let x := s1.tz p
        ((s1.setTz p { x with
          writes := x.writes ++ [(c * 2 ^ 20 + q.1 / 256, c)]
          txq := x.txq ++ [tzPacket 1 node s1.node 1 (c * 2 ^ 20 + q.1 / 256) (dst + q.1) bs] }).tzFlush p)) s

/-- DMA_SLOT_START (R341, R343). -/
def dmaSlotStart (s : State) (c : Nat) : State :=
  let r := s.dmaRun c
  let n := r.slot
  if 8 ≤ n ∨ r.started ∨ !s.trigMet c n then s
  else
    let s1 := (s.setDma c ⟨n, true, 0⟩).setF (dmCh c) DM_CH_STAT_waiting 0
    if s1.slotFault c n ≠ 0 then s1.dmaBad c n (s1.slotFault c n) 0
    else if !s1.slotReadable c n then s1.dmaBad c n 2 0
    else if s1.getF (dmCh c) DM_SLOTn_CTRL_dst_space n = 3 then s1.slotToWindow c n
    else s1

/-- DMA_SLOT_DONE (R342). -/
def dmaSlotDone (s : State) (c : Nat) : State :=
  let r := s.dmaRun c
  let n := r.slot
  let p := dmCh c
  if 8 ≤ n ∨ !r.started ∨ s.peerWrites c then s
  else
    let cnt := s.getF p DM_SLOTn_CNT_count n
    let s1 := if s.getF p DM_SLOTn_CTRL_dst_space n = 3 then s else s.slotMove c n cnt
    let s2 := (s1.setF p DM_SLOTn_CTRL_state 2 n).setF p DM_SLOTn_DONE_bytes cnt n
    (s2.raiseIf (s2.flag p DM_SLOTn_CTRL_irq_en n) p n).dmaNext c n

/-- The cause of an outside error, and whether the slot's spaces can meet it (R343). -/
def dmaErr (s : State) (c n : Nat) (e : DmaError) : Nat × Bool :=
  let src := s.getF (dmCh c) DM_SLOTn_CTRL_src_space n
  let win := s.getF (dmCh c) DM_SLOTn_CTRL_dst_space n == 3
  match e with
  | .hostRead => (1, src == 0)
  | .gddrRead => (2, src == 1 || src == 2)
  | .windowClosed => (3, win)
  | .noWindow => (4, win)
  | .windowRange => (5, win)

/-- DMA_SLOT_BAD (R343): the bytes before the error stay written; an uncorrectable GDDR6 word is the block after them (R391). -/
def dmaSlotBad (s : State) (c : Nat) (e : DmaError) (bytes : Nat) : State :=
  let r := s.dmaRun c
  let n := r.slot
  if 8 ≤ n ∨ !r.started then s
  else
    let (cause, fits) := s.dmaErr c n e
    let cnt := s.getF (dmCh c) DM_SLOTn_CNT_count n
    let win := s.getF (dmCh c) DM_SLOTn_CTRL_dst_space n == 3
    if !fits || decide (cnt ≤ bytes) then s
    else
      let len := bytes / 64 * 64
      let s1 := if win then s else s.slotMove c n len
      let at' := (if s1.getF (dmCh c) DM_SLOTn_CTRL_src_space n = 1 then 0 else s1.xferBase) + s1.slotSrc c n + len
      let s2 := if e = .gddrRead then s1.gddrUe at' else s1
      s2.dmaBad c n cause (if win then min len r.bytes else len)

/-- A write to DM_CH_CTRL (R339, R344); what an abort leaves written is a free number of the slot's blocks. -/
def dmCtrlWrite (a : Agent) (c v : Nat) (s : State) : State :=
  let p := dmCh c
  let busy := s.flag p DM_CH_STAT_busy
  let s1 := plainWrite a p 0x40 v s
  if bit v 31 && !busy && !s.enabled p then s.refuse a p 0x40
  else if bit v 30 ∧ busy then
    let r := s1.dmaRun c
    let cnt := s1.getF p DM_SLOTn_CNT_count r.slot
    if !r.started then s1.dmaBad c r.slot 7 0
    else if s1.getF p DM_SLOTn_CTRL_dst_space r.slot = 3 then s1.dmaBad c r.slot 7 r.bytes
    else
      let (f, s2) := s1.draw
      let len := f % (cnt / 64 + 1) * 64
      (s2.slotMove c r.slot len).dmaBad c r.slot 7 len
  else if bit v 31 ∧ !busy then s1.dmaReach c (s1.getF p DM_CH_CTRL_head) else s1

/-- A write to a word of a descriptor slot (R338, R340, R357). -/
def dmSlotWrite (a : Agent) (c off v : Nat) (s : State) : State :=
  let p := dmCh c
  let n := (off - 0x80) / 0x20
  let o := (off - 0x80) % 0x20
  let held := s.flag p DM_CH_STAT_busy && s.getF p DM_SLOTn_CTRL_state n == 1
  if o = 0x14 then
    let old := s.word (p + off)
    let v' := if held then setBits old 31 30 (bits v 31 30) else v
    let s1 := plainWrite a p off v' s
    let s2 := if held && bits v 26 13 != bits old 26 13 then s1.refuse a p off else s1
    -- DONE and cause are 0 once a slot is READY again; a slot that is not BAD shows no cause
    let s3 := if bits v 31 30 = 1 then s2.setF p DM_SLOTn_DONE_bytes 0 n else s2
    if s3.getF p DM_SLOTn_CTRL_state n = 3 then s3 else s3.setF p DM_SLOTn_CTRL_cause 0 n
  else if held then s.refuse a p off
  else plainWrite a p off (if o = 0 ∨ o = 8 then v / 64 * 64 else v) s

end State

/-! ### The commands -/

/-- DMA_GO (R339). -/
def execDmaGo (a : Agent) (c : Fin 16) (v : Word) (s : State) : Host.Outcome State Fault Refusal :=
  (s.guardedWrite a (dmCh c) 0x40 (setBit v.toNat 31) (State.dmCtrlWrite a c)).done
/-- DMA_ABORT (R344). -/
def execDmaAbort (a : Agent) (c : Fin 16) (v : Word) (s : State) : Host.Outcome State Fault Refusal :=
  (s.guardedWrite a (dmCh c) 0x40 (setBit v.toNat 30) (State.dmCtrlWrite a c)).done
/-- DMA_SLOT_START (R341). -/
def execDmaSlotStart (c : Fin 16) (s : State) : Host.Outcome State Fault Refusal := s.eng (s.dmaSlotStart c)
/-- DMA_SLOT_DONE (R342). -/
def execDmaSlotDone (c : Fin 16) (s : State) : Host.Outcome State Fault Refusal := s.eng (s.dmaSlotDone c)
/-- DMA_SLOT_BAD (R343). -/
def execDmaSlotBad (c : Fin 16) (err : DmaError) (bytesDone : Nat) (s : State) : Host.Outcome State Fault Refusal :=
  s.eng (s.dmaSlotBad c err bytesDone)
/-- WINDOW_OPEN (R348): a write of WN_CTRL with open set. -/
def execWindowOpen (a : Agent) (w : Fin 256) (v : Word) (s : State) : Host.Outcome State Fault Refusal :=
  (s.guardedWrite a (winPage w) (0x800 + 0x20 * winEnt w) (setBit v.toNat 29) (State.winCtrlWrite a w)).done
/-- WINDOW_CLOSE (R348): a write of WN_CTRL with open clear. -/
def execWindowClose (a : Agent) (w : Fin 256) (v : Word) (s : State) : Host.Outcome State Fault Refusal :=
  (s.guardedWrite a (winPage w) (0x800 + 0x20 * winEnt w) (clrBit v.toNat 29) (State.winCtrlWrite a w)).done
/-- WINDOW_CLOSE_DONE (R348). -/
def execWindowCloseDone (w : Fin 256) (s : State) : Host.Outcome State Fault Refusal := s.eng (s.winCloseDone w)
/-- WINDOW_WRITE (R350): a write of the Puppeteer, a DMA channel or a peer; one of another size than a window takes is no write. -/
def execWindowWrite (node : Fin 4) (dma : Bool) (addr : BitVec 64) (data : List Byte) (s : State) : Host.Outcome State Fault Refusal :=
  s.eng (if State.winSized data.length && (dma || node.val == s.node) then (s.winWrite node addr.toNat data).1 else s)
/-- WINDOW_ARRIVAL (R352). -/
def execWindowArrival (w : Fin 256) (s : State) : Host.Outcome State Fault Refusal := s.eng (s.winLand w)
/-- WINDOW_TARGET_WRITE (R352). -/
def execWindowTargetWrite (a : Agent) (w : Fin 256) (v : Word) (s : State) : Host.Outcome State Fault Refusal :=
  (s.guardedWrite a (winPage w) (0x810 + 0x20 * winEnt w) v.toNat (State.winTargetWrite a w)).done

end Sys2Proof.Machine
end

