-- ==== Sys2Proof/Machine/Tuzer.lean ====
section
/-! DEFINITION. The Tuzer ports: training and failure (R521, R528, R529), flits (R523 to R525), and the packets that a port has
received (R526, R527, R350, R272, R273). -/

namespace Sys2Proof.Machine

/-- Bits of a flit's header (R523): type, seq, ack, nak, credits returned in a class, and the first packet header. -/
def flitType (f : List Byte) : Nat := bits (le f 0 2) 15 12
def flitSeq (f : List Byte) : Nat := bits (le f 0 2) 11 0
def flitAck (f : List Byte) : Nat := bits (le f 2 2) 11 0
def flitNak (f : List Byte) : Bool := bit (le f 2 2) 15
def flitCredit (f : List Byte) (c : Nat) : Nat := le f (4 + c) 1
def flitFirst (f : List Byte) : Nat := le f 8 2

/-- Type, length and well-formedness of the packet whose header starts a byte stream (R526). -/
def pktType (p : List Byte) : Nat := le p 0 1
def pktLen (p : List Byte) : Nat := le p 2 2
def pktOk (p : List Byte) : Bool :=
  let ty := pktType p
  let n := pktLen p
  decide (1 ≤ ty ∧ ty ≤ 4) && (n == 0 || [64, 128, 192, 256].contains n) && (ty != 1 || n != 0) && (ty != 3 || n != 0)

/-- The whole packets at the front of a byte stream, and what is left of it. The filling after a packet is zeros, which start no
header (log 30). -/
def splitPackets : Nat → List Byte → List (List Byte) × List Byte
  | 0, bs => ([], bs)
  | k + 1, bs =>
    if bs.length < 16 then ([], if bs.all (· == 0) then [] else bs)
    else if pktType bs = 0 then ([], [])
    else
      let n := 16 + pktLen bs
      if bs.length < n then ([], bs)
      else
        let (ps, rest) := splitPackets k (bs.drop n)
        (bs.take n :: ps, rest)

namespace State

/-! ### Routes and port states -/

/-- A node joins or leaves the route table (R534). -/
def tzRoute (s : State) (n : Nat) (p : Option Nat) : State :=
  let w := s.getF tzCommonPage TZ_NODES_route
  let l := s.getF tzCommonPage TZ_NODES_live
  let s1 := s.setF tzCommonPage TZ_NODES_route (setBits w (2 * n + 1) (2 * n) (p.getD 3))
  s1.setF tzCommonPage TZ_NODES_live (if p.isSome || n == s.node then setBit l n else clrBit l n)

/-- TZ_PORT_STAT.state of port p (R528). -/
def tzState (s : State) (p : Nat) : Nat := s.getF (tzPort p) TZ_PORT_STAT_state

/-- TZ_CFG.node has been written since reset (R521, R528). -/
def nodeSet (s : State) : Bool := s.woDone.contains (tzCommonPage + 0x40)

/-- A write to TZ_CFG: the node becomes live (R521, R534). -/
def tzCfgWrite (a : Agent) (v : Nat) (s : State) : State :=
  let s1 := plainWrite a tzCommonPage 0x40 v s
  if s1.nodeSet then s1.setF tzCommonPage TZ_NODES_live (setBit (s1.getF tzCommonPage TZ_NODES_live) s1.node) else s1

/-- The writes that a port has sent and that no WRITE_RSP has answered fail (R529). -/
def failWrites (s : State) (p : Nat) : State :=
  let chans := (List.range 16).filter fun c => (s.tz p).writes.any fun w => w.2 == c
  chans.foldl (fun s c => let r := s.dmaRun c; if r.slot < 8 then s.dmaBad c r.slot 4 r.bytes else s) s

/-- A port leaves UP (R528, R529): its route goes, its writes fail, and what waits to leave or came in part is lost. -/
def tzLeaveUp (s : State) (p : Nat) : State :=
  let s1 := (s.tzRoute (s.getF (tzPort p) TZ_PORT_STAT_peer) none).failWrites p
  let x := s1.tz p
  (s1.setTz p { x with unacked := [], txq := [], writes := [], stream := [], nakd := false, hunting := false }).raise (tzPort p) 1

/-- A port enters TRAINING (R528). -/
def tzTrain (s : State) (p : Nat) : State :=
  (s.setF (tzPort p) TZ_PORT_STAT_state 1).setTz p { s.tz p with since := s.time.elapsed }

/-- A port goes from UP to RETRAIN (R528). -/
def tzRetrainNow (s : State) (p : Nat) : State :=
  let s1 := ((s.tzLeaveUp p).setF (tzPort p) TZ_PORT_STAT_state 3).satF (tzPort p) TZ_PORT_TRAIN_retrains
  s1.setTz p { s1.tz p with since := s1.time.elapsed }

/-- A port goes DOWN (R528). -/
def tzDown (s : State) (p : Nat) : State :=
  (if s.tzState p = 2 then s.tzLeaveUp p else s).setF (tzPort p) TZ_PORT_STAT_state 0

/-- A write to TZ_PORT_CTRL (R528). -/
def tzCtrlWrite (a : Agent) (p v : Nat) (s : State) : State :=
  let s1 := plainWrite a (tzPort p) 0x40 v s
  let st := s1.tzState p
  let starts := bit v 0 && (st == 0 && s1.nodeSet || bit v 1 && (st == 2 || st == 4))
  if starts && !s.enabled (tzPort p) then s.refuse a (tzPort p) 0x40
  else if !bit v 0 then s1.tzDown p
  else if st = 0 then (if s1.nodeSet then s1.tzTrain p else s1)
  else if bit v 1 ∧ st = 2 then s1.tzRetrainNow p
  else if bit v 1 ∧ st = 4 then s1.tzTrain p
  else s1

/-- TZ_TRAINING_DONE (R521, R525, R528): lanes aligned and the node exchange valid. -/
def tzTrained (s : State) (p : Nat) (t : TzTraining) : State :=
  let st := s.tzState p
  if st ≠ 1 ∧ st ≠ 3 then s
  else
    let page := tzPort p
    let peer := t.peer.val
    let taken : Bool := match s.routeTo peer with | some q => q != p | none => false
    let same := st == 1 || peer == s.getF page TZ_PORT_STAT_peer
    let s1 := s.setF page TZ_PORT_STAT_lanes_ok t.lanes.toNat
    if t.lanes.toNat ≠ 15 ∨ peer = s.node ∨ taken ∨ !same then s1
    else
      let s2 := ((s1.setF page TZ_PORT_STAT_peer peer).setF page TZ_PORT_STAT_state 2).tzRoute peer (some p)
      let x := s2.tz p
      (s2.setTz p { TzPortSt.idle with rxq := x.rxq, lastGood := s2.time.elapsed, lastAck := s2.time.elapsed }).raise page 0

/-- TZ_TRAINING_TIMEOUT (R528). -/
def tzFailed (s : State) (p : Nat) : State :=
  let st := s.tzState p
  let t := s.time.elapsed - (s.tz p).since
  if (st = 1 ∧ 10000000 * 2 ^ 32 ≤ t) ∨ (st = 3 ∧ 100000 * 2 ^ 32 ≤ t) then
    ((s.setF (tzPort p) TZ_PORT_STAT_state 4).satF (tzPort p) TZ_PORT_TRAIN_fails).raise (tzPort p) 2
  else s

/-- TZ_LINK_SILENT (R528). -/
def tzSilent (s : State) (p : Nat) : State :=
  if s.tzState p = 2 ∧ (s.tz p).lastGood + 2000 * 2 ^ 32 ≤ s.time.elapsed then s.tzRetrainNow p else s

/-! ### Flits -/

/-- A packet received whole (R526, R527): one that this node does not take is dropped and counted. -/
def tzPacketIn (s : State) (p : Nat) (k : List Byte) : State :=
  if !pktOk k || bits (le k 1 1) 1 0 != s.node then s.satF (tzPort p) TZ_PORT_ERR_bad_pkt
  else s.setTz p { s.tz p with rxq := (s.tz p).rxq ++ [k] }

/-- The payload of a data flit accepted in order (R523, R526). -/
def tzPayload (s : State) (p : Nat) (f : List Byte) : State :=
  let x := s.tz p
  let pay := sub f 0x18 224
  let bs := if x.stream.isEmpty then (if flitFirst f < 224 then pay.drop (flitFirst f) else []) else x.stream ++ pay
  let (ps, rest) := splitPackets 16 bs
  ps.foldl (fun s k => s.tzPacketIn p k) (s.setTz p { x with stream := rest })

/-- FLIT_RECEIVE (R523 to R525): the ack, the nak and the credits that a good flit carries, then its data in order. -/
def tzFlit (s : State) (p : Nat) (f : List Byte) (crcOk : Bool) : State :=
  if s.tzState p ≠ 2 ∨ f.length ≠ 256 then s
  else
    let s0 := (s.countBw (29 + p) 256).countEvt (tzPort p) 0x10 256
    if !crcOk then (s0.satF (tzPort p) TZ_PORT_ERR_crc).setTz p { s0.tz p with hunting := true }
    else
      let x := s0.tz p
      let un := match x.unacked.findIdx? (fun u => u.seq == flitAck f) with
        | some i => x.unacked.drop (i + 1)
        | none => x.unacked
      let s1 := s0.setTz p { x with
        unacked := un, lastAck := if un.length < x.unacked.length then s0.time.elapsed else x.lastAck
        nakd := x.nakd || flitNak f, lastGood := s0.time.elapsed
        credits := (List.range 3).map fun c => x.credits.getD c 0 + flitCredit f c }
      let y := s1.tz p
      let s2 :=
        if flitType f ≠ 1 then s1
        else if flitSeq f = y.rxSeq then (s1.setTz p { y with rxSeq := (y.rxSeq + 1) % 4096, hunting := false }).tzPayload p f
        else s1.setTz p { y with hunting := true }
      s2.tzFlush p

/-- FLIT_REPLAY (R524): on a nak, or 2,000 ns without an ack, every unacknowledged flit leaves again; a flit replayed 8 times
already takes the port to RETRAIN. -/
def tzReplay (s : State) (p : Nat) (nak : Bool) : State :=
  let x := s.tz p
  let due := if nak then x.nakd else decide (x.lastAck + 2000 * 2 ^ 32 ≤ s.time.elapsed)
  if s.tzState p ≠ 2 ∨ x.unacked.isEmpty ∨ !due then s
  else if x.unacked.any (fun u => decide (8 ≤ u.replays)) then s.tzRetrainNow p
  else
    let n := x.unacked.length
    let s1 := s.setTz p { x with
      unacked := x.unacked.map (fun u => { u with replays := u.replays + 1 }), nakd := false, lastAck := s.time.elapsed }
    (((s1.satF (tzPort p) TZ_PORT_ERR_replays).raise (tzPort p) 3).countBw (26 + p) (256 * n)).countEvt (tzPort p) 0x11 (256 * n)

/-! ### Packets passed on -/

/-- The oldest packet of a type that a port has received, taken from it. -/
def tzTake (s : State) (p ty : Nat) : Option (List Byte × State) :=
  match (s.tz p).rxq.find? (fun k => pktType k == ty) with
  | some k => some (k, s.setTz p { s.tz p with rxq := (s.tz p).rxq.erase k })
  | none => none

/-- WRITE (R350, R527): the window port tests it and answers with one WRITE_RSP. -/
def tzWrite (s : State) (p : Nat) : State :=
  match s.tzTake p 1 with
  | none => s
  | some (k, s1) =>
    let src := bits (le k 1 1) 3 2
    let (s2, code) := s1.winWrite src (le k 8 8) (k.drop 16)
    s2.tzSend src (tzPacket 2 src s2.node 1 (le k 4 4) code [])

/-- WRITE_RSP (R527): the write it answers is acknowledged, or its slot becomes BAD. -/
def tzWriteRsp (s : State) (p : Nat) : State :=
  match s.tzTake p 2 with
  | none => s
  | some (k, s1) =>
    let tag := le k 4 4
    match (s1.tz p).writes.find? (fun w => w.1 == tag) with
    | none => s1
    | some w =>
      let s2 := s1.setTz p { s1.tz p with writes := (s1.tz p).writes.erase w }
      let c := w.2
      let r := s2.dmaRun c
      let cnt := s2.getF (dmCh c) DM_SLOTn_CNT_count r.slot
      let code := bits (le k 8 8) 15 0
      if 8 ≤ r.slot then s2
      else if code = 0 then s2.setDma c { r with bytes := r.bytes + min 256 (cnt - 256 * (tag % 2 ^ 20)) }
      else s2.dmaBad c r.slot (winCause code) r.bytes

/-- HALO (R272, R273, R526): a part of halo columns goes into the receive slot it names; with the last part the columns have
arrived. The tag field names the sender's rink and the halo entry (log 31). -/
def tzHalo (s : State) (p : Nat) : State :=
  match s.tzTake p 3 with
  | none => s
  | some (k, s1) =>
    let addr := le k 8 8
    let m := bits addr 3 0
    let slot := bits addr 5 4
    let off := bits addr 31 8
    let e := bits (le k 4 4) 7 4
    match (s1.group m).halos[e]? with
    | none => s1
    | some x =>
      let data := k.drop 16
      let base := x.rxbuf + slot * haloSlot x
      if s1.domState (m / 4) ≠ 0 ∨ haloSlot x < off + data.length then s1
      else
        let s2 := s1.spadWr m ((base + off) % 2 ^ 23) data
        if off + data.length < haloSlot x then s2
        else
          let img := s2.spadRd m (base % 2 ^ 23) (haloSlot x)
          let r := s2.rink m
          let msg : HaloMsg :=
            { node := bits (le k 1 1) 3 2, src := bits (le k 4 4) 3 0, entry := e, right := decide (2 ≤ slot), seq := le img 0 4
              stream := le img 4 1, col := le img 8 2, data := sub img 64 (x.rows * x.planes * x.h * x.b) }
          s2.setRink m { r with inbound := r.inbound ++ [msg] }

/-- HALO_CREDIT (R273, R526). -/
def tzHaloCredit (s : State) (p : Nat) : State :=
  match s.tzTake p 4 with
  | none => s
  | some (k, s1) =>
    let addr := le k 8 8
    let m := bits addr 3 0
    if s1.domState (m / 4) ≠ 0 then s1
    else
      let r := s1.rink m
      s1.setRink m { r with credits := r.credits ++ [(bits addr 6 4, bit addr 7)] }

end State

/-! ### The commands -/

/-- TZ_PORT_ENABLE (R528): a write of TZ_PORT_CTRL. -/
def execTzPortEnable (a : Agent) (p : Fin 3) (v : Word) (s : State) : Host.Outcome State Fault Refusal :=
  (s.guardedWrite a (tzPort p) 0x40 v.toNat (State.tzCtrlWrite a p)).done
/-- TZ_RETRAIN (R528): a write of TZ_PORT_CTRL with retrain set. -/
def execTzRetrain (a : Agent) (p : Fin 3) (v : Word) (s : State) : Host.Outcome State Fault Refusal :=
  (s.guardedWrite a (tzPort p) 0x40 (setBit v.toNat 1) (State.tzCtrlWrite a p)).done
/-- TZ_TRAINING_DONE (R528). -/
def execTzTrainingDone (p : Fin 3) (t : TzTraining) (s : State) : Host.Outcome State Fault Refusal := s.eng (s.tzTrained p t)
/-- TZ_TRAINING_TIMEOUT (R528). -/
def execTzTrainingTimeout (p : Fin 3) (s : State) : Host.Outcome State Fault Refusal := s.eng (s.tzFailed p)
/-- FLIT_RECEIVE (R524). -/
def execFlitReceive (p : Fin 3) (flit : List Byte) (crcOk : Bool) (s : State) : Host.Outcome State Fault Refusal :=
  s.eng (s.tzFlit p flit crcOk)
/-- FLIT_REPLAY (R524). -/
def execFlitReplay (p : Fin 3) (nak : Bool) (s : State) : Host.Outcome State Fault Refusal := s.eng (s.tzReplay p nak)
/-- TZ_LINK_SILENT (R528). -/
def execTzLinkSilent (p : Fin 3) (s : State) : Host.Outcome State Fault Refusal := s.eng (s.tzSilent p)
/-- WRITE (R527). -/
def execWrite (p : Fin 3) (s : State) : Host.Outcome State Fault Refusal := s.eng (s.tzWrite p)
/-- WRITE_RSP (R527). -/
def execWriteRsp (p : Fin 3) (s : State) : Host.Outcome State Fault Refusal := s.eng (s.tzWriteRsp p)
/-- HALO (R526). -/
def execHalo (p : Fin 3) (s : State) : Host.Outcome State Fault Refusal := s.eng (s.tzHalo p)
/-- HALO_CREDIT (R526). -/
def execHaloCredit (p : Fin 3) (s : State) : Host.Outcome State Fault Refusal := s.eng (s.tzHaloCredit p)

end Sys2Proof.Machine
end

