-- ==== Sys2Proof/Machine/Power.lean ====
section
/-! DEFINITION. Clocks and the power ladder (R557 to R578), the rails, PWR_OK and D3hot (R573, R621 to R627). -/

namespace Sys2Proof.Machine

/-- The maximum frequency of a clock domain in hundredths of a MHz (R21, R559). -/
def domainMax (dom : Nat) : Nat :=
  if dom = 0 then 2500 else if dom = 1 then 80000 else if dom = 2 then 20000 else if dom = 3 then 100000
  else if dom = 4 then 50000 else if dom ≤ 12 then 112500 else if dom ≤ 20 then 900000 else if dom ≤ 28 then 56250
  else if dom = 29 then 60000 else if dom = 30 then 80000 else if dom ≤ 46 then 50000 else if dom ≤ 54 then 100000
  else if dom = 55 then 40000 else if dom = 56 then 100000 else if dom = 57 then 25000 else if dom = 58 then 4000 else 5000

/-- Every page of the register space (R28, R29, R503, R504). -/
def allPages : List Nat :=
  pageRuns.flatMap (fun r => (List.range r.2.2).map fun i => r.2.1 + i * 0x1000) ++
    (List.range 16).flatMap fun n => rk n :: clRink n :: (List.range 8).flatMap fun c => [cr (8 * n + c), clCore (8 * n + c)]

/-- The pages in a clock domain. -/
def domainPages (dom : Nat) : List Nat :=
  allPages.filter fun p => match pageInfo p with | some (k, i) => clockDomain k i == dom | none => false

/-- The rink clock at a throttle level, in MHz (R574). -/
def rinkMhz (level : Nat) : Nat := [500, 400, 333, 250, 125].getD level 125

namespace State

/-! ### PLLs, the oscillator and the enables -/

/-- A PLL loses lock (R557, R576): a domain's or a rink's fences its domain, any other halts the device. A PLL of a domain that
is fenced or disabled does not run (R416). -/
def pllUnlock (s : State) (i : Nat) : State :=
  let dom := if 12 ≤ i ∧ i < 16 then some (i - 12) else if 16 ≤ i then some ((i - 16) / 4) else none
  let stopped := match dom with | some d => s.domState d == 1 || s.domState d == 3 | none => false
  if stopped then s
  else
    let s1 := (s.setF ckPage CK_LOCK_locked (clrBit (s.getF ckPage CK_LOCK_locked) i)).setF ckPage CK_UNLOCK_lost
      (setBit (s.getF ckPage CK_UNLOCK_lost) i)
    let s2 := s1.raise ckPage 0
    match dom with
    | some d => s2.post ckPage 0x0801 d
    | none => s2.post ckPage 0x0802

/-- OSC_TRIM (R558): a count outside ±1 % of 40,000 cycles a millisecond is trimmed into it, to where is free. -/
def oscTrim (s : State) (cycles : Nat) : State :=
  if !stateRuns s.clockState 58 then s
  else if 39600 ≤ cycles ∧ cycles ≤ 40400 then { s with power := { s.power with oscTrim := cycles } }
  else
    let (f, s1) := s.draw
    { s1 with power := { s1.power with oscTrim := 39600 + f % 801 } }

/-- A write to a CK_ enable register: the bits that R563 holds at 1 stay, and such a write is counted once (R12). -/
def ckEnableWrite (a : Agent) (off v : Nat) (s : State) : State :=
  let held := if off % 8 = 0 then 7 else 2 ^ 25
  let s1 := plainWrite a ckPage off (v ||| held) s
  if v &&& held = held then s1 else s1.pgErr a ckPage off 0x01 true

/-- The clock of a domain runs (R562); a domain without pages has no page's enable to meet. -/
def domainRuns (s : State) (dom : Nat) : Bool :=
  let ps := s.clockState
  let pages := domainPages dom
  stateRuns ps dom && (decide (4 ≤ ps) || (s.ckEnable ps dom && (pages.isEmpty || pages.any fun p => s.pgEnable ps p)))

/-- A write to CK_CLKOUT (R564, R565): a source and divisor above 200 MHz are a reserved encoding, and both are kept. -/
def clkoutWrite (a : Agent) (v : Nat) (s : State) : State :=
  let old := s.word (ckPage + 0x60)
  let sel := if bits v 21 16 ≤ 59 then bits v 21 16 else bits old 21 16
  if 20000 * (bits v 11 0 + 1) < domainMax sel then
    ((plainWrite a ckPage 0x60 (setBits (setBits v 21 16 (bits old 21 16)) 11 0 (bits old 11 0)) s).pgErr a ckPage 0x60 0x01 true).raise ckPage 2
  else (plainWrite a ckPage 0x60 v s).raise ckPage 2

/-! ### The power ladder -/

/-- A store command runs (R494, R573). -/
def storeBusy (s : State) : Bool :=
  s.link.held.any fun h => h.reply.isNone && decide (0x50 ≤ le h.cmd 0 2 ∧ le h.cmd 0 2 ≤ 0x55)

/-- The encoding of the first condition of R573 that fails for entry to PSk, 0 for none. -/
def psRefuse (s : State) (k : Nat) : Nat :=
  let rinkOk := fun n => s.domState (n / 4) != 0 || s.rkState n == 0 || s.rkState n == 4
  let lifts := s.move.lifts.all fun l => l.2.isEmpty
  if s.fe.strm.any (fun x => x.2.cfg.isSome) || s.fe.tld.isSome then 2
  else if !(List.range 16).all rinkOk || s.getF dmCommonPage DM_BUSY_busy != 0 || !lifts then 3
  else if 3 ≤ k && [0, 1, 2, 3].any (fun j => (s.job j).isSome) then 4
  else if 3 ≤ k && (List.range 256).any (fun w =>
    let st := s.getF (winPage w) WN_CTRL_state (winEnt w)
    st == 1 || st == 2) then 5
  else if 4 ≤ k && (s.storeBusy || s.flag scPage SC_DBG_unlocked) then 6
  else if 5 ≤ k && !s.link.d3hot then 7
  else 0

/-- A request is refused (R572). -/
def psRefused (s : State) (reason : Nat) : State :=
  (((s.setF pwPage PW_PS_STAT_refuse reason).satF pwPage PW_PS_CNT_refused).raise pwPage 2).postRecord pwPage 0x0807 0xFF

/-- A write to PW_PS_REQ (R570, R572). -/
def psReqWrite (a : Agent) (v : Nat) (s : State) : State :=
  let s1 := plainWrite a pwPage 0x40 v s
  let k := bits v 2 0
  let st := s1.psState
  if k = 1 ∨ k = 6 ∨ k = 7 then s1
  else if st = 6 ∨ st = 7 then s1.psRefused 1
  else if k = 0 then (if 2 ≤ st then s1.wake 0 else s1)
  else if st < k then
    match s1.psRefuse k with
    | 0 =>
      let s2 := (s1.setF pwPage PW_PS_STAT_state 6).setF pwPage PW_PS_STAT_target k
      { s2 with power := { s2.power with deepest := k } }
    | r => s1.psRefused r
  else if k < st then
    let s2 := (s1.setF pwPage PW_PS_STAT_state 7).setF pwPage PW_PS_STAT_target k
    if st = 5 then
      { s2 with power := { s2.power with supplyEn := true, wakeAt := if s2.power.pwrOk then none else some s2.time.elapsed } }
    else s2
  else s1

/-- The register words of the rink and core pages at their reset values (R416). -/
def rinkPagesReset (s : State) (n : Nat) : State :=
  { s with regs := s.regs.filter (fun e => !(rk n ≤ e.1 && e.1 < rk n + 0x100000)) }

/-- Core memories and scratchpads are lost (R566): a rink and its cores at rest, their memories zero once scrubbed (R569). -/
def loseRink (s : State) (n : Nat) : State :=
  let s1 := (List.range 8).foldl (fun s c => (s.setCore (8 * n + c) .idle).setLift (16 + (8 * n + c)) []) s
  let s2 := (s1.setRink n .idle).setLift n []
  { s2 with spad := s2.spad.filter fun e => e.1 / 2 ^ 23 != n }

/-- The state of the GDDR6 channels that a power state gives (R401, R403). -/
def gddrPower (s : State) (st : Nat) : State :=
  (List.range 8).foldl (fun s c => if s.getF (mxCh c) MX_CH_STAT_state = 3 then s else s.setF (mxCh c) MX_CH_STAT_state st) s

/-- The entry steps to the requested state are complete (R566, R571, R572, R589). -/
def psEntered (s : State) : State :=
  if s.psState ≠ 6 then s
  else
    let k := s.getF pwPage PW_PS_STAT_target
    let s1 := ((s.setF pwPage PW_PS_STAT_state k).satF pwPage PW_PS_CNT_entries).gddrPower (if k = 2 then 1 else 2)
    let s2 := if 3 ≤ k then (List.range 16).foldl loseRink ((List.range 3).foldl tzDown s1) else s1
    let s3 :=
      if 4 ≤ k then
        let t := { s2.markersDrop with stripe := [] }
        { t with wax := { t.wax with due := true } }.setF wxPage WX_STAT_running 0
      else s2
    let s4 := if k = 5 then { s3 with power := { s3.power with supplyEn := false } } else s3
    (s4.logEntry (Config.powerEntry k s4.ns)).raise pwPage 0

/-- Tuzer ports that are on train again after Lodge or deeper (R568). -/
def tzAgain (s : State) (p : Nat) : State :=
  if s.flag (tzPort p) TZ_PORT_CTRL_en && s.tzState p == 0 && s.nodeSet then s.tzTrain p else s

/-- The exit is complete (R568, R569, R572, R627): from Off-season only once the board has asserted PWR_OK. The stripe memory's
scrub is the longest. -/
def psExited (s : State) : State :=
  if s.psState ≠ 7 ∨ s.power.wakeAt.isSome then s
  else
    let j := s.getF pwPage PW_PS_STAT_target
    let from' := s.power.deepest
    let s1 := ((s.setF pwPage PW_PS_STAT_state j).gddrPower (if j = 0 then 0 else if j = 2 then 1 else 2)).raise pwPage 1
    let s2 := if j < 3 ∧ 3 ≤ from' then (List.range 3).foldl tzAgain s1 else s1
    let scrub := if 4 ≤ from' then 81920 else 62500
    let p := { s2.power with
      deepest := j, scrubUntil := if j < 3 ∧ 3 ≤ from' then s2.time.elapsed + scrub * 2 ^ 32 else s2.power.scrubUntil }
    ({ s2 with power := p } : State).logEntry (Config.powerEntry j s2.ns)

/-- WAKE_EVENT (R570): the sources that wake in the present state, laid out as PW_WAKE. -/
def wakeEvent (s : State) (src : Nat) : State :=
  let st := s.psState
  let pins := src &&& s.getF pwPage PW_WAKE_gpio &&& (s.getF tbPage TB_GPIO_EDGE_rise_en ||| s.getF tbPage TB_GPIO_EDGE_fall_en)
  let host := bit src 16 && (st == 4 || st == 5 || s.flag pwPage PW_WAKE_host)
  let alarm := bit src 17 && s.flag pwPage PW_WAKE_alarm &&
    decide (s.get64 pwPage PW_ALARM_LO_ns_lo PW_ALARM_HI_ns_hi ≤ s.ns)
  let got := pins % 2 ^ 16 + b01 host * 2 ^ 16 + b01 alarm * 2 ^ 17
  if got = 0 then s else s.wake got

/-- GLIDE_ENTRY (R567). -/
def glideEntry (s : State) : State :=
  if s.psState = 0 ∧ !s.active ∧ s.power.idleSince + 1000 * 2 ^ 32 ≤ s.time.elapsed then s.setF pwPage PW_PS_STAT_state 1 else s

/-! ### Temperature -/

/-- The hottest of the 24 thermal readings in 0.1 °C, and its sensor (R578, R582). -/
def hottest (s : State) : Int × Nat :=
  (List.range 24).foldl (fun (m : Int × Nat) i =>
    let v := toSigned 16 (s.getF wxPage WX_MONk_value i)
    if i = 0 ∨ m.1 < v then (v, i) else m) (0, 0)

/-- PW_THERM_STAT shows the hottest reading (R578). -/
def showHot (s : State) : State :=
  let h := s.hottest
  (s.setF pwPage PW_THERM_STAT_hot (ofSigned 16 h.1)).setF pwPage PW_THERM_STAT_sensor h.2

/-- The throttle level changes (R574). -/
def setLevel (s : State) (l : Nat) : State :=
  let s1 := (((s.setF ckPage CK_RINK_level l).setF ckPage CK_RINK_mhz (rinkMhz l)).raise ckPage 1).satF pwPage PW_THERM_STAT_steps
  let s2 := s1.raise pwPage 3
  let key := markKey pwPage 0x0805 0
  if s2.rateOpen key 1000000000 then (s2.postRecord pwPage 0x0805 0xFF).rateMark key else s2.countEvt pwPage 0x03 1

/-- THERMAL_COMPARE (R574). -/
def thermalCompare (s0 : State) : State :=
  let s := s0.showHot
  let cool := fun (s : State) n => { s with power := { s.power with coolCount := n } }
  if !s.flag pwPage PW_THERM_throttle_en then cool s 0
  else
    let hot := s.hottest.1
    let thr : Int := s.getF pwPage PW_THERM_thr_c
    let hyst : Int := s.getF pwPage PW_THERM_hyst_c
    let l := s.getF ckPage CK_RINK_level
    if 10 * thr ≤ hot then (if l < s.getF pwPage PW_THERM_max_level then (cool s 0).setLevel (l + 1) else cool s 0)
    else if hot < 10 * (thr - hyst) then
      let n := s.power.coolCount + 1
      if n < 10 then cool s n else if 0 < l then (cool s 0).setLevel (l - 1) else cool s 0
    else cool s 0

/-- THERMAL_TRIP (R575). -/
def thermalTrip (s0 : State) : State :=
  let s := s0.showHot
  let lim : Int := s.getF pwPage PW_THERM_trip_c
  if 10 * lim ≤ s.hottest.1 then s.post pwPage 0x0806 else s

/-! ### Rails -/

/-- RAIL_UNDERVOLTAGE (R571, R576, R621, R628): while SUPPLY_EN is deasserted only the always-on rail is watched, and the rail of a
disabled domain may be absent. -/
def railLow (s : State) (r : Nat) : State :=
  if (!s.power.supplyEn && r != 6) || (decide (r < 4) && s.domState r == 3) then s
  else
    let s1 := s.raise pwPage 4
    if r < 4 then s1.post pwPage 0x0803 r else s1.post pwPage 0x0804

/-- PWR_OK falls (R627). -/
def pwrOkFall (s : State) : State :=
  if !s.power.pwrOk then s
  else
    let s1 := { s with power := { s.power with pwrOk := false } }
    if s1.power.supplyEn then (s1.raise pwPage 4).post pwPage 0x0804 else s1

/-- PWR_OK rises (R627). -/
def pwrOkRise (s : State) : State := { s with power := { s.power with pwrOk := true, wakeAt := none } }

/-- PWR_OK has not risen within 10 ms of the wake from Off-season (R627). -/
def pwrOkTimeout (s : State) : State :=
  match s.power.wakeAt with
  | some t =>
    if t + 10000000 * 2 ^ 32 ≤ s.time.elapsed then
      (({ s with power := { s.power with wakeAt := none } } : State).raise pwPage 4).post pwPage 0x0804
    else s
  | none => s

/-- The function moves between D0 and D3hot (R498, R573). -/
def functionD3 (s : State) (hot : Bool) : State := { s with link := { s.link with d3hot := hot } }

end State

/-! ### The commands -/

/-- PLL_UNLOCK (R557). -/
def execPllUnlock (i : Fin 32) (s : State) : Host.Outcome State Fault Refusal := s.eng (s.pllUnlock i)
/-- OSC_TRIM (R558). -/
def execOscTrim (cycles : Nat) (s : State) : Host.Outcome State Fault Refusal := s.eng (s.oscTrim cycles)
/-- CLKOUT_SWITCH (R565). -/
def execClkoutSwitch (a : Agent) (v : Word) (s : State) : Host.Outcome State Fault Refusal :=
  (s.guardedWrite a ckPage 0x60 v.toNat (State.clkoutWrite a)).done
/-- POWER_STATE_REQUEST (R572). -/
def execPowerStateRequest (a : Agent) (v : Word) (s : State) : Host.Outcome State Fault Refusal :=
  (s.guardedWrite a pwPage 0x40 v.toNat (State.psReqWrite a)).done
/-- POWER_STATE_ENTERED (R572). -/
def execPowerStateEntered (s : State) : Host.Outcome State Fault Refusal := s.eng s.psEntered
/-- WAKE_EVENT (R570). -/
def execWakeEvent (src : BitVec 18) (s : State) : Host.Outcome State Fault Refusal := s.eng (s.wakeEvent src.toNat)
/-- GLIDE_ENTRY (R567). -/
def execGlideEntry (s : State) : Host.Outcome State Fault Refusal := s.eng s.glideEntry
/-- THERMAL_COMPARE (R574). -/
def execThermalCompare (s : State) : Host.Outcome State Fault Refusal := s.eng s.thermalCompare
/-- THERMAL_TRIP (R575). -/
def execThermalTrip (s : State) : Host.Outcome State Fault Refusal := s.eng s.thermalTrip
/-- RAIL_UNDERVOLTAGE (R576). -/
def execRailUndervoltage (rail : Fin 12) (s : State) : Host.Outcome State Fault Refusal := s.eng (s.railLow rail)
/-- PWR_OK_FALL (R627). -/
def execPwrOkFall (s : State) : Host.Outcome State Fault Refusal := s.eng s.pwrOkFall
/-- PWR_OK_RISE (R627). -/
def execPwrOkRise (s : State) : Host.Outcome State Fault Refusal := s.eng s.pwrOkRise
/-- PWR_OK_TIMEOUT (R627). -/
def execPwrOkTimeout (s : State) : Host.Outcome State Fault Refusal := s.eng s.pwrOkTimeout

/-- FUNCTION_D3HOT (R573): a configuration write, which is a host request (R570). -/
def execFunctionD3hot (d3 : Bool) (s : State) : Host.Outcome State Fault Refusal :=
  (if s.hostWaits then s.holdHost (.d3 d3) else s.functionD3 d3).done

end Sys2Proof.Machine
end

