-- ==== Sys2Proof/Machine/Sec.lean ====
section
/-! DEFINITION. The security complex (R432 to R464): keys, sessions, command frames and their replies (R450, R451, R507 to R511,
R518), owner commands, quotes and debug unlock. -/

namespace Sys2Proof.Machine

/-- A session at rest. -/
def SessSt.closed : SessSt := { key := [], resp := List.replicate 8 0, challengeAt := 0, backoffEnd := 0, nonce := none }

/-- An empty owner slot. -/
def OwnerSlot.empty : OwnerSlot := { state := 0, hash := [], kOwner := [], ceiling := 0 }

/-- A second in units of elapsed timebase. -/
def second : Nat := 1000000000 * 2 ^ 32

/-- The right that gates a command, and whether the opcode names a command at all (R379, R446, R452, R494, R517, R600, R612, R613,
R615). -/
def opRight (op : Nat) : Option Nat :=
  if 0x40 ≤ op ∧ op ≤ 0x44 then some 3
  else if op = 0x51 ∨ op = 0x52 ∨ op = 0x70 ∨ op = 0x73 ∨ op = 0x74 then some 5
  else if op = 0x53 then some 2
  else if op = 0x66 then some 4
  else if op = 0x71 then some 0
  else none
def opKnown (op : Nat) : Bool :=
  (opRight op).isSome || op == 0x50 || op == 0x54 || op == 0x55 || (decide (0x60 ≤ op ∧ op ≤ 0x67)) || op == 0x72

/-- A body of the frame. -/
def frameBody (f : List Byte) : List Byte := f.drop 32
/-- Opcode, session and sequence number of a frame (R450). -/
def frameOp (f : List Byte) : Nat := le f 0 2
def frameSess (f : List Byte) : Nat := le f 4 1
def frameSeq (f : List Byte) : Nat := le f 8 8

/-- A reply frame (R450): the command's opcode with bit 15 set, its session and sequence number, and the tag under `key`. -/
def replyFrame (cmd key : List Byte) (status : Nat) (body : List Byte) : List Byte :=
  let hdr := leBytes 2 (frameOp cmd % 2 ^ 15 + 2 ^ 15) ++ leBytes 2 body.length ++ sub cmd 4 1 ++ leBytes 1 0 ++ leBytes 2 status ++
    sub cmd 8 8
  hdr ++ (if key.isEmpty then zeros 16 else (hmac key (hdr ++ body)).take 16) ++ body

namespace State

/-! ### Keys (R432 to R435) -/

def sess (s : State) (i : Nat) : SessSt := tabGet (fun _ => SessSt.closed) s.sec.sess i
def setSess (s : State) (i : Nat) (x : SessSt) : State :=
  { s with sec := { s.sec with sess := tabPut (fun _ => SessSt.closed) s.sec.sess i x } }
def owner (s : State) (k : Nat) : OwnerSlot := s.sec.slots.getD k .empty
def setOwner (s : State) (k : Nat) (x : OwnerSlot) : State := { s with sec := { s.sec with slots := setAt s.sec.slots k x } }
/-- Some owner slot is valid. -/
def anyOwner (s : State) : Bool := s.sec.slots.any fun x => x.state == 1

/-- The device identifier (R432). -/
def deviceId (s : State) : List Byte := (sha256 s.sec.idPub).take 16

/-- K_model and K_arch of an owner slot, and K_ring of a verdict ring (R433). -/
def kModel (s : State) (k : Nat) : List Byte := hkdf s.sec.dus (s.owner k).hash (ascii "AX9160 MODEL") 32
def kArch (s : State) (k : Nat) : List Byte := hkdf s.sec.dus (s.owner k).hash (ascii "AX9160 ARCHIVE") 32
def kRing (s : State) (k r : Nat) : List Byte := hkdf (s.owner k).kOwner s.deviceId (ascii "AX9160 VRING" ++ leBytes 2 r) 32

/-- The Puppeteer loads key slot r (R433, R435). -/
def loadKey (s : State) (r : Nat) : State :=
  let g := (tabGet (fun _ => { key := [], gen := 0 : KeySlot }) s.keys r).gen + 1
  let key := hkdf s.sec.dus s.sec.bootSalt (ascii "AX9160 SEAL" ++ leBytes 1 r ++ leBytes 4 g) 64
  { s with keys := tabPut (fun _ => { key := [], gen := 0 }) s.keys r { key := key, gen := g } }

/-! ### Sessions (R448, R449, R452) -/

def sessState (s : State) (i : Nat) : Nat := s.getF (ppSess i) PP_SESS_STAT_state

/-- Some open session holds a right. -/
def someRight (s : State) (b : Nat) : Bool :=
  (List.range 8).any fun i => s.sessState i == 2 && bit (s.getF (ppSess i) PP_SESS_STAT_rights) b

/-- The Puppeteer follows the rights of the open sessions: FE_TAP_PERMIT (R110, R452) and PC_CTRL.host_read (R600). -/
def followRights (s : State) : State :=
  let s1 := s.setF pcPage PC_CTRL_host_read (b01 (s.someRight 0))
  if s1.someRight 1 then s1.setF feCommonPage FE_TAP_PERMIT_allow 0xFFFFFFFF
  else (List.range 32).foldl (fun s k => if bit (s.getF feCommonPage FE_TAP_PERMIT_allow) k then s.tapPermitClear k else s) s1

/-- The debug unlock ends (R464). -/
def debugEnd (s : State) : State :=
  if s.flag scPage SC_DBG_unlocked then (s.setWord (scPage + 0x6C) 0).raise scPage 1 else s

/-- A session closes (R449, R488): its key is erased, its debug unlock ends, and a transfer area that it filled is zeroed. -/
def closeSession (s : State) (i : Nat) : State :=
  let p := ppSess i
  let s1 := ((s.setSess i .closed).setF p PP_SESS_STAT_state 0).setF p PP_SESS_STAT_rights 0
  let s2 := (List.range 8).foldl (fun s k => s.setF p PP_SESS_NONCEk_nd 0 k) s1
  let s3 := if s2.flag scPage SC_DBG_unlocked && s2.getF scPage SC_DBG_session == i then s2.debugEnd else s2
  let s4 :=
    if s3.store.xferSess = some i then
      let t := s3.gddrWr s3.xferBase (zeros s3.xferBytes)
      { t with store := { t.store with xferSess := none } }
    else s3
  (s4.raise p 2).followRights

/-- What session i must answer to its challenge (R448). -/
def sessAnswer (s : State) (i : Nat) : List Byte :=
  let p := ppSess i
  let k := s.getF p PP_SESS_CTRL_slot
  let nd := (List.range 8).flatMap fun w => leBytes 4 (s.getF p PP_SESS_NONCEk_nd w)
  hmac (s.owner k).kOwner (ascii "AX9160 SESSION" ++ s.deviceId ++ nd ++ leBytes 1 i ++ leBytes 1 k ++
    leBytes 4 (s.getF p PP_SESS_REQ_rights))

/-- The challenge is over: Nd reads 0 (R467). -/
def dropNonce (s : State) (i : Nat) : State := (List.range 8).foldl (fun s k => s.setF (ppSess i) PP_SESS_NONCEk_nd 0 k) s

/-- open written 1 in CLOSED (R449). -/
def sessOpen (s : State) (i : Nat) : State :=
  let p := ppSess i
  match (s.owner (s.getF p PP_SESS_CTRL_slot)).state with
  | 1 =>
    let (nd, s1) := s.drawBytes 32
    let s2 := (List.range 8).foldl (fun s k => s.setF p PP_SESS_NONCEk_nd (le nd (4 * k) 4) k) s1
    ((s2.setSess i { SessSt.closed with challengeAt := s2.time.elapsed }).setF p PP_SESS_STAT_state 1).raise p 0
  | 3 => (s.raise p 3).post p 0x060C
  | _ => (s.raise p 3).post p 0x0604

/-- prove written 1 in CHALLENGE (R449). -/
def sessProve (s : State) (i : Nat) : State :=
  let p := ppSess i
  let k := s.getF p PP_SESS_CTRL_slot
  let o := s.owner k
  let nd := (List.range 8).flatMap fun w => leBytes 4 (s.getF p PP_SESS_NONCEk_nd w)
  let right := (s.sess i).resp.flatMap (leBytes 4) == s.sessAnswer i && o.state == 1
  let s1 := s.dropNonce i
  if right then
    let ks := hkdf o.kOwner nd (ascii "AX9160 CMD" ++ leBytes 1 i) 32
    let s2 := (((s1.setSess i { SessSt.closed with key := ks }).setF p PP_SESS_STAT_state 2).setF p PP_SESS_STAT_fails 0).setF p
      PP_SESS_STAT_rights (s1.getF p PP_SESS_REQ_rights &&& o.ceiling)
    ((s2.set64 p PP_SESS_SEQ_LO_seq_lo PP_SESS_SEQ_HI_seq_hi 0).raise p 1).followRights
  else
    let s2 := (s1.satF p PP_SESS_STAT_fails).setF p PP_SESS_STAT_state 3
    let wait := min (2 ^ (s2.getF p PP_SESS_STAT_fails - 1)) 1024
    let s3 := s2.setSess i { SessSt.closed with backoffEnd := s2.time.elapsed + wait * second }
    (s3.raise p 3).post p 0x0604

/-- A write to PP_SESS_CTRL (R449, R467): a new slot outside CLOSED is refused, and the actions still act. -/
def sessCtrlWrite (a : Agent) (i v : Nat) (s : State) : State :=
  let p := ppSess i
  let st := s.sessState i
  let s1 :=
    if st = 0 then plainWrite a p 0x40 v s
    else if bits v 1 0 = s.getF p PP_SESS_CTRL_slot then s else s.refuse a p 0x40
  match st with
  | 0 => if bit v 31 then s1.sessOpen i else s1
  | 1 => if bit v 30 then s1.sessProve i else s1
  | 2 => if bit v 29 then s1.closeSession i else s1
  | _ => s1

/-- A write to PP_SESS_REQ (R467), and to a response word, which reads 0. -/
def sessReqWrite (a : Agent) (i v : Nat) (s : State) : State :=
  if s.sessState i = 0 then plainWrite a (ppSess i) 0x44 v s else s.refuse a (ppSess i) 0x44
def sessRespWrite (i k v : Nat) (s : State) : State :=
  s.setSess i { s.sess i with resp := setAt (s.sess i).resp k v }

/-! ### Frames -/

/-- Free slots of the completion ring of ring r (R507, R510). -/
def cqFree (s : State) (r : Nat) : Nat :=
  let p := pxCmd r
  2 ^ s.getF p PX_CR_CFG_cq_log2 - (s.getF p PX_CQ_TAIL_tail + 2 ^ 16 - s.getF p PX_CQ_HEAD_head) % 2 ^ 16

/-- The frame at the head of submission ring r, when the Puppeteer may take it (R507, R509 to R511, R518): 32 + body_len bytes. -/
def frameAt (s : State) (r : Nat) : Option (List Byte) :=
  let p := pxCmd r
  let h := s.getF p PX_SQ_HEAD_head
  if !s.flag p PX_CR_CFG_en || h == s.getF p PX_SQ_TAIL_tail || !s.link.up || s.cqFree r == 0 || s.link.held.any (fun x => x.ring == r) then
    none
  else
    let a := s.get64 p PX_SQ_BASE_LO_addr_lo PX_SQ_BASE_HI_addr_hi / 4096 * 4096 + h % 2 ^ s.getF p PX_CR_CFG_sq_log2 * 4096
    let hdr := s.hostRd a 32
    some (s.hostRd a (32 + min 4064 (le hdr 2 2)))

/-- The code with which a frame of ring r is refused (R451, R509, R511), 0 where every test passes. -/
def frameTest (s : State) (r : Nat) (f : List Byte) : Nat :=
  let op := frameOp f
  let i := frameSess f
  let p := ppSess r
  let none' := i == 0xFF
  if (none' && !(op == 0x65 || (op == 0x61 && !s.anyOwner))) || (!none' && (i != r || s.sessState r != 2)) then 0x0604
  else if le f 2 2 > 4064 ∨ le f 5 1 ≠ 0 ∨
      sub f 16 16 != (if none' then zeros 16 else (hmac (s.sess r).key (f.take 16 ++ frameBody f)).take 16) then 0x0605
  else if !none' && decide (frameSeq f ≤ s.get64 p PP_SESS_SEQ_LO_seq_lo PP_SESS_SEQ_HI_seq_hi) then 0x0606
  else if !opKnown op then 0x0607
  else match opRight op with
    | some b => if none' || !bit (s.getF p PP_SESS_STAT_rights) b then 0x0607 else 0
    | none => 0

/-- Replies that wait are written in order to a ring that has room while the link is up (R509, R510, R518): a reply longer than a slot
runs on into the next (log 42). -/
def flushRing (s : State) (r : Nat) : State :=
  match s.link.held.find? (fun x => x.ring == r) with
  | none => s
  | some h =>
    match h.reply with
    | none => s
    | some f =>
      let p := pxCmd r
      let n := cdiv f.length 4096
      let rest := { s with link := { s.link with held := s.link.held.erase h } }
      if h.dropped then rest
      else if !s.link.up ∨ s.cqFree r < n then s
      else
        let base := s.get64 p PX_CQ_BASE_LO_addr_lo PX_CQ_BASE_HI_addr_hi / 4096 * 4096
        let t := s.getF p PX_CQ_TAIL_tail
        let slots := 2 ^ s.getF p PX_CR_CFG_cq_log2
        let s1 := (List.range n).foldl (fun s i =>
          s.pcieWr (base + (t + i) % slots * 4096) ((f.drop (4096 * i)).take 4096)) rest
        (((s1.wrapF p PX_SQ_HEAD_head).wrapF p PX_CQ_TAIL_tail n)).raise p 0

/-- The command that a ring runs is answered (R509, R511). -/
def finish (s : State) (r status : Nat) (body : List Byte) : State :=
  let held := s.link.held.map fun h =>
    if h.ring = r ∧ h.reply.isNone then { h with reply := some (replyFrame h.cmd h.key status body) } else h
  ({ s with link := { s.link with held := held } } : State).flushRing r

/-- A frame is taken (R509): read from the host, and held until it is answered. -/
def takeFrame (s : State) (r : Nat) (f key : List Byte) : State :=
  let s1 := s.pcieRdCount (cdiv f.length 64 * 64)
  { s1 with link := { s1.link with held := s1.link.held ++ [⟨r, f, key, none, false⟩] } }

/-- A command refused with a code, which its page posts (R451, R465). -/
def refuseCmd (s : State) (r code : Nat) (page : Nat) : State := (s.finish r code []).post page code

/-- A frame that fails a test is taken and refused (R451): tests 1 and 2 leave the tag zero. -/
def refuseFrame (s : State) (r : Nat) (f : List Byte) (code : Nat) : State :=
  let key := if code = 0x0604 ∨ code = 0x0605 ∨ frameSess f = 0xFF then [] else (s.sess r).key
  let s1 := if code = 0x0607 ∧ frameSess f ≠ 0xFF then
    s.set64 (ppSess r) PP_SESS_SEQ_LO_seq_lo PP_SESS_SEQ_HI_seq_hi (frameSeq f) else s
  (s1.takeFrame r f key).refuseCmd r code (ppSess r)

/-- The frames at the head of a ring that fail a test are refused, one after the other, up to the first that passes. -/
def drainRing : Nat → State → Nat → State
  | 0, s, _ => s
  | n + 1, s, r =>
    match s.frameAt r with
    | none => s
    | some f => match s.frameTest r f with
      | 0 => s
      | code => drainRing n (s.refuseFrame r f code) r

/-- The Puppeteer serves the frame at the head of ring r when it holds the command `op`: refused, or accepted and run. -/
def serve (s : State) (r op : Nat) (run : State → List Byte → State) : State :=
  match s.frameAt r with
  | none => s
  | some f =>
    if frameOp f ≠ op then s
    else
      let t := match s.frameTest r f with
        | 0 =>
          let key := if frameSess f = 0xFF then [] else (s.sess r).key
          let s1 := if frameSess f = 0xFF then s else
            s.set64 (ppSess r) PP_SESS_SEQ_LO_seq_lo PP_SESS_SEQ_HI_seq_hi (frameSeq f)
          run (s1.takeFrame r f key) f
        | code => s.refuseFrame r f code
      drainRing 256 t r

/-! ### Owner commands (R444 to R447) -/

/-- An owner public key has the parameters of R445. -/
def ownerKeyOk (pub : List Byte) : Bool :=
  let l := beNat (sub pub 0 4)
  let t := beNat (sub pub 4 4)
  let o := beNat (sub pub 8 4)
  (l == 1 || l == 2) && decide (5 ≤ t ∧ t ≤ 9) && decide (1 ≤ o ∧ o ≤ 4)

/-- The owner authorisation that follows the first n bytes of a body (R445): its slot where it is accepted. The nonce of the session
is used up whatever the outcome. -/
def authorised (s : State) (r : Nat) (f : List Byte) (n : Nat) : Option Nat × State :=
  let body := frameBody f
  let au := body.drop n
  let k := le au 0 1
  let o := s.owner k
  let pub := sub au 4 60
  let x := s.sess r
  let s1 := s.setSess r { x with nonce := none }
  match x.nonce with
  | none => (none, s1)
  | some (nd, t) =>
    let msg := ascii "AX9160 OWNER" ++ leBytes 2 (frameOp f) ++ s.deviceId ++ nd ++ body.take n
    let ok := decide (k < 3) && o.state == 1 && sha256 pub == o.hash && ownerKeyOk pub && hssVerify pub (au.drop 64) msg &&
      decide (s.time.elapsed < t + 60 * second)
    (if ok then some k else none, s1)

/-- NONCE (R446). -/
def cmdNonce (r : Nat) (s : State) (_ : List Byte) : State :=
  let (nd, s1) := s.drawBytes 32
  (s1.setSess r { s1.sess r with nonce := some (nd, s1.time.elapsed) }).finish r 0 nd

/-- OWNER_INSTALL (R444, R446). -/
def cmdOwnerInstall (r : Nat) (s : State) (f : List Byte) : State :=
  let b := frameBody f
  let k := le b 0 1
  let (ok, s1) := if s.anyOwner then (let (a, s1) := s.authorised r f 97; (a.isSome, s1)) else (true, s)
  let st := (s1.owner k).state
  if 2 < k ∨ b.length < 97 then s1.refuseCmd r 0x0604 (ppSess r)
  else if st = 3 then s1.refuseCmd r 0x060C (ppSess r)
  else if !ok ∨ st ≠ 0 then s1.refuseCmd r 0x0604 (ppSess r)
  else (s1.setOwner k { state := 1, hash := sha256 (sub b 5 60), kOwner := sub b 65 32, ceiling := le b 1 4 % 64 }).finish r 0 []

/-- OWNER_REVOKE (R444): the slot's sessions close, its records and images are erased. -/
def cmdOwnerRevoke (r : Nat) (s : State) (f : List Byte) : State :=
  let k := le (frameBody f) 0 1
  let (au, s1) := s.authorised r f 1
  let st := (s1.owner k).state
  if 2 < k then s1.refuseCmd r 0x0604 (ppSess r)
  else if st = 3 then s1.refuseCmd r 0x060C (ppSess r)
  else if au.isNone ∨ st ≠ 1 then s1.refuseCmd r 0x0604 (ppSess r)
  else
    let s2 := s1.setOwner k { s1.owner k with state := 3, kOwner := [], ceiling := 0 }
    let s3 := (List.range 8).foldl (fun s i =>
      if (s.sessState i = 1 ∨ s.sessState i = 2) ∧ s.getF (ppSess i) PP_SESS_CTRL_slot = k then s.closeSession i else s) s2
    let models := s3.store.models.filter fun m => match m.2 with | some x => x.slot != k | none => true
    ({ s3 with store := { s3.store with models := models } } : State).finish r 0 []

/-- SESSION_KEY_SET (R446); the header that authenticates is its first 16 bytes, before the tag (log 41). -/
def cmdSessionKeySet (r : Nat) (s : State) (f : List Byte) : State :=
  let b := frameBody f
  let k := le b 0 1
  let (au, s1) := s.authorised r f 65
  match gcmDec (s1.sess r).key (sub b 5 12) (f.take 16) (sub b 17 32) (sub b 49 16) with
  | some key =>
    if au = some k then (s1.setOwner k { s1.owner k with kOwner := key, ceiling := le b 1 4 % 64 }).finish r 0 []
    else if (s1.owner k).state = 3 then s1.refuseCmd r 0x060C (ppSess r)
    else s1.refuseCmd r 0x0604 (ppSess r)
  | none => s1.refuseCmd r 0x0604 (ppSess r)

/-- POLICY_SET (R446, R447). -/
def cmdPolicySet (r : Nat) (s : State) (f : List Byte) : State :=
  let b := frameBody f
  let (au, s1) := s.authorised r f 8
  if au.isSome ∧ s1.sec.policyCtr < le b 4 4 then
    let s2 := { s1 with sec := { s1.sec with policy := le b 0 4 % 4, policyCtr := le b 4 4 } }
    (s2.setF scPage SC_POLICY_policy (le b 0 4 % 4)).finish r 0 []
  else s1.refuseCmd r 0x0604 (ppSess r)

/-- MEM_POLICY (R612): the choice takes effect at the next device reset. -/
def cmdMemPolicy (r : Nat) (s : State) (f : List Byte) : State :=
  let b := frameBody f
  let (au, s1) := s.authorised r f 1
  if au.isSome ∧ le b 0 1 ≤ 1 then
    ({ s1 with sec := { s1.sec with eccOff := le b 0 1 == 1 } } : State).finish r 0 []
  else s1.refuseCmd r 0x0604 (ppSess r)

/-! ### Quotes (R453 to R458) -/

/-- The 448 bytes of a quote (R458). -/
def quoteBytes (s : State) (r : Nat) (f : List Byte) : List Byte :=
  let img := fun t => match s.sec.images[t]? with
    | some i => leBytes 4 i.ver ++ leBytes 2 i.epoch ++ leBytes 2 i.svn ++ leBytes 1 i.copy ++ zeros 7 ++ sub i.hash 0 32
    | none => zeros 48
  let boot := b01 (s.flag scPage SC_BOOT_STAT_untested) + 2 * b01 s.sec.dbgEver + 4 * b01 (s.flag scPage SC_BOOT_STAT_recovery)
  let owners := (List.range 3).foldl (fun w k => w + (s.owner k).state % 4 * 4 ^ k) 0
  let slot := if frameSess f = 0xFF then zeros 32 else sub (s.owner (s.getF (ppSess r) PP_SESS_CTRL_slot)).hash 0 32
  let jobs := (List.range 4).flatMap fun j => match s.job j with | some x => sub x.digest 0 32 | none => zeros 32
  leBytes 4 0x31515841 ++ leBytes 2 1 ++ zeros 2 ++ s.deviceId ++ sub (frameBody f) 0 32 ++ leBytes 8 s.ns ++ leBytes 4 s.sec.policy ++
    leBytes 1 boot ++ leBytes 1 owners ++ zeros 10 ++ (List.range 4).flatMap img ++ slot ++ jobs ++
    leBytes 8 (s.get64 wxPage WX_LAST_LO_t_lo WX_LAST_HI_t_hi) ++ leBytes 2 (s.getF wxPage WX_LAST_TJ_tj) ++
    leBytes 2 (b01 (s.flag wxPage WX_STAT_running) + 2 * b01 (s.flag wxPage WX_STAT_at_limit)) ++ leBytes 4 (s.getF wxPage WX_CRC_crc)

/-- QUOTE (R457, R458): the quote waits for its signature. -/
def cmdQuote (r : Nat) (s : State) (f : List Byte) : State :=
  { s with sec := { s.sec with quotes := s.sec.quotes ++ [⟨r, s.quoteBytes r f⟩] } }

/-- An identity signature is refused (R457, R455, R466, R468). -/
def refuseSignature (s : State) (r code : Nat) : State :=
  ((s.raise scPage 3).raise ppMbPage 4).refuseCmd r code ppMbPage

/-- IDENTITY_SIGNATURE (R453 to R457): the oldest quote that waits is signed, at most one a second; a leaf outside the reserved block
first has its block journaled. -/
def identitySign (s : State) (journalOk : Bool) : State :=
  match s.sec.quotes with
  | [] => s
  | q :: rest =>
    let soon := match s.sec.sigAt with | some t => decide (s.time.elapsed < t + second) | none => false
    if soon then s
    else
      let leaf := s.sec.leafNext
      let s1 := { s with sec := { s.sec with quotes := rest } }
      if 2 ^ 30 ≤ leaf then s1.refuseSignature q.ring 0x0609
      else
        let fresh := decide (s.sec.leafEnd ≤ leaf)
        if fresh && !journalOk then s1.refuseSignature q.ring 0x060A
        else
          let first := leaf / 1024 * 1024
          let n := match s1.sec.leaf with | some (n, _) => n + 1 | none => 0
          let s2 :=
            if fresh then
              ({ s1 with sec := { s1.sec with leaf := some (n, first), leafEnd := first + 1024 } } : State).setF scPage SC_LEAF_RES_end
                (first + 1024)
            else s1
          let s3 := { s2 with sec := { s2.sec with sigAt := some s2.time.elapsed, leafNext := leaf + 1 } }
          (s3.setF scPage SC_LEAF_next (leaf + 1)).finish q.ring 0 (q.quote ++ sub (Config.identitySignature s3.sec.dus leaf q.quote) 0 5396)

end State

namespace State

/-! ### Debug unlock (R463, R464) -/

/-- DEBUG_UNLOCK (R463, R464). -/
def cmdDebugUnlock (r : Nat) (s : State) (f : List Byte) : State :=
  let b := frameBody f
  let nonceOk := match (s.sess r).nonce with | some (nd, _) => sub b 0x18 32 == nd | none => false
  let (au, s1) := s.authorised r f 64
  let dur := le b 0x38 4
  let form := le b 0 4 == 0x54445841 && le b 4 2 == 1 && sub b 8 16 == s.deviceId && le b 0x3C 4 == 0
  match au with
  | some k =>
    if bit s1.sec.policy 1 && nonceOk && form && dur != 0 && decide (dur ≤ 86400) && !s1.flag scPage SC_DBG_unlocked then
      let w := 2 ^ 31 + r * 2 ^ 28 + k * 2 ^ 26 + le b 6 2
      let s2 := { s1.setWord (scPage + 0x6C) w with sec := { s1.sec with dbgEver := true } }
      let s3 := s2.set64 scPage SC_DBG_END_LO_t_lo SC_DBG_END_HI_t_hi (s2.ns + dur * 1000000000)
      (s3.raise scPage 0).finish r 0 []
    else s1.refuseCmd r 0x060B (ppSess r)
  | none => s1.refuseCmd r 0x060B (ppSess r)

/-- DEBUG_LOCK (R446, R464). -/
def cmdDebugLock (r : Nat) (s : State) (_ : List Byte) : State := s.debugEnd.finish r 0 []

/-- The unlock's time is over (R464). -/
def debugExpiry (s : State) : State :=
  if s.flag scPage SC_DBG_unlocked && decide (s.get64 scPage SC_DBG_END_LO_t_lo SC_DBG_END_HI_t_hi ≤ s.ns) then s.debugEnd else s

/-- 10 s pass in CHALLENGE (R449). -/
def challengeTimeout (s : State) (i : Nat) : State :=
  if s.sessState i = 1 ∧ (s.sess i).challengeAt + 10 * second ≤ s.time.elapsed then
    ((s.dropNonce i).setSess i .closed).setF (ppSess i) PP_SESS_STAT_state 0
  else s

/-- The backoff has elapsed (R449). -/
def backoffEnd (s : State) (i : Nat) : State :=
  if s.sessState i = 3 ∧ (s.sess i).backoffEnd ≤ s.time.elapsed then
    (s.setSess i .closed).setF (ppSess i) PP_SESS_STAT_state 0
  else s

/-- Remaining backoff in whole seconds, rounded up (PP_SESS_BACKOFF, R467). -/
def backoffLeft (s : State) (i : Nat) : Nat :=
  if s.sessState i = 3 then cdiv ((s.sess i).backoffEnd - s.time.elapsed) second else 0

/-- A read of a frame fails (R511): the ring stops. -/
def frameReadFail (s : State) (r : Nat) : State :=
  match s.frameAt r with
  | none => s
  | some _ => ((s.setF (pxCmd r) PX_CR_CFG_en 0).raise (pxCmd r) 1)

end State

/-! ### The commands -/

/-- NONCE (R446). -/
def execNonce (ring : Fin 8) (s : State) : Host.Outcome State Fault Refusal := s.eng (s.serve ring 0x60 (State.cmdNonce ring))
/-- OWNER_INSTALL (R444). -/
def execOwnerInstall (ring : Fin 8) (s : State) : Host.Outcome State Fault Refusal :=
  s.eng (s.serve ring 0x61 (State.cmdOwnerInstall ring))
/-- OWNER_REVOKE (R444). -/
def execOwnerRevoke (ring : Fin 8) (s : State) : Host.Outcome State Fault Refusal :=
  s.eng (s.serve ring 0x62 (State.cmdOwnerRevoke ring))
/-- SESSION_KEY_SET (R446). -/
def execSessionKeySet (ring : Fin 8) (s : State) : Host.Outcome State Fault Refusal :=
  s.eng (s.serve ring 0x63 (State.cmdSessionKeySet ring))
/-- POLICY_SET (R447). -/
def execPolicySet (ring : Fin 8) (s : State) : Host.Outcome State Fault Refusal := s.eng (s.serve ring 0x64 (State.cmdPolicySet ring))
/-- MEM_POLICY (R612). -/
def execMemPolicy (ring : Fin 8) (s : State) : Host.Outcome State Fault Refusal := s.eng (s.serve ring 0x72 (State.cmdMemPolicy ring))
/-- QUOTE (R458). -/
def execQuote (ring : Fin 8) (s : State) : Host.Outcome State Fault Refusal := s.eng (s.serve ring 0x65 (State.cmdQuote ring))
/-- IDENTITY_SIGNATURE (R457). -/
def execIdentitySignature (journalOk : Bool) (s : State) : Host.Outcome State Fault Refusal := s.eng (s.identitySign journalOk)
/-- DEBUG_UNLOCK (R463). -/
def execDebugUnlock (ring : Fin 8) (s : State) : Host.Outcome State Fault Refusal := s.eng (s.serve ring 0x66 (State.cmdDebugUnlock ring))
/-- DEBUG_LOCK (R464). -/
def execDebugLock (ring : Fin 8) (s : State) : Host.Outcome State Fault Refusal := s.eng (s.serve ring 0x67 (State.cmdDebugLock ring))
/-- DEBUG_UNLOCK_EXPIRY (R464). -/
def execDebugUnlockExpiry (s : State) : Host.Outcome State Fault Refusal := s.eng s.debugExpiry
/-- SESSION_OPEN (R449): a write of PP_SESS_CTRL with open set. -/
def execSessionOpen (a : Agent) (i : Fin 8) (v : Word) (s : State) : Host.Outcome State Fault Refusal :=
  (s.guardedWrite a (ppSess i) 0x40 (setBit v.toNat 31) (State.sessCtrlWrite a i)).done
/-- SESSION_PROVE (R449). -/
def execSessionProve (a : Agent) (i : Fin 8) (v : Word) (s : State) : Host.Outcome State Fault Refusal :=
  (s.guardedWrite a (ppSess i) 0x40 (setBit v.toNat 30) (State.sessCtrlWrite a i)).done
/-- SESSION_CLOSE (R449). -/
def execSessionClose (a : Agent) (i : Fin 8) (v : Word) (s : State) : Host.Outcome State Fault Refusal :=
  (s.guardedWrite a (ppSess i) 0x40 (setBit v.toNat 29) (State.sessCtrlWrite a i)).done
/-- SESSION_CHALLENGE_TIMEOUT (R449). -/
def execSessionChallengeTimeout (i : Fin 8) (s : State) : Host.Outcome State Fault Refusal := s.eng (s.challengeTimeout i)
/-- SESSION_BACKOFF_END (R449). -/
def execSessionBackoffEnd (i : Fin 8) (s : State) : Host.Outcome State Fault Refusal := s.eng (s.backoffEnd i)
/-- FRAME_READ_FAIL (R511). -/
def execFrameReadFail (ring : Fin 8) (s : State) : Host.Outcome State Fault Refusal := s.eng (s.frameReadFail ring)

end Sys2Proof.Machine
end

