-- ==== Sys2Proof/Machine/Adapt.lean ====
section
/-! DEFINITION. On-line head adaptation as commands (R366 to R382): labels and the sample queue, steps, swaps of the weight bank, pause,
resume and rollback. -/

namespace Sys2Proof.Machine

namespace State

/-- The adaptation of a job replaced; FE_SLM_ADCNT.queued follows. -/
def setAdapt (s : State) (j : Nat) (a : AdaptSt) : State :=
  match s.job j with
  | none => s
  | some x => (s.setJob j (some { x with adapt := some a })).setF (feSlm j) FE_SLM_ADCNT_queued a.samples.length

/-- The adaptation of a job slot. -/
def adaptOf (s : State) (j : Nat) : Option AdaptSt := match s.job j with | some x => x.adapt | none => none
def adaptState (s : State) (j : Nat) : Nat := s.getF (feSlm j) FE_SLM_ADAPT_state

/-- The job slots that a command of ring r acts on: the adapting jobs whose image the session's owner slot signed (log 43). -/
def adaptJobs (s : State) (r : Nat) : List Nat :=
  [0, 1, 2, 3].filter fun j => match s.job j with
    | some x => x.adapt.isSome && !x.stopping && x.owner == s.getF (ppSess r) PP_SESS_CTRL_slot
    | none => false

/-! ### Labels (R367, R368) -/

/-- The capture in a job's ring that matches a label: the newest (R368). -/
def findCapture (s : State) (a : AdaptSt) (seq stream x0 : Nat) : Option Nat :=
  let held := min a.caps (2 ^ a.desc.capLog2)
  ((List.range held).map fun i => a.caps - 1 - i).find? fun n =>
    let h := s.gddrRd (captureAt a.desc n) 64
    le h 0x18 4 == n && le h 0 4 == seq && le h 4 1 == stream && le h 6 2 == x0

/-- One label entry for a job: its result and the state (R368). -/
def labelOne (s : State) (j : Nat) (e : List Byte) : Nat × State :=
  match s.adaptOf j with
  | none => (2, s)
  | some a =>
    let nOut := match a.desc.layers.getLast? with | some l => l.nOut | none => 0
    if nOut ≤ le e 5 1 ∨ le e 6 1 = 0 ∨ le e 7 1 ≠ 0 ∨ le e 10 6 ≠ 0 then (3, s)
    else match s.findCapture a (le e 0 4) (le e 4 1) (le e 8 2) with
      | none => (2, s)
      | some n =>
        let new : Sample := ⟨n, le e 5 1, le e 6 1⟩
        if a.samples.any (fun x => x.cap == n) then
          (1, s.setAdapt j { a with samples := a.samples.map fun x => if x.cap = n then new else x })
        else if 4096 ≤ a.samples.length then (4, s)
        else (0, s.setAdapt j { a with samples := a.samples ++ [new] })

/-- An entry goes to the first job whose ring holds its capture. -/
def labelEntry (s : State) (jobs : List Nat) (e : List Byte) : Nat × State :=
  jobs.foldl (fun (t : Nat × State) j => if t.1 = 2 then t.2.labelOne j e else t) (2, s)

/-- ADAPT_LABEL (R367, R368, R379): the reply counts each outcome, 0 to 4, in two bytes each (log 43). -/
def cmdAdaptLabel (r : Nat) (s : State) (f : List Byte) : State :=
  let b := frameBody f
  let n := le b 0 1
  let es := b.drop (b.length - 16 * n)
  if n = 0 ∨ 63 < n ∨ b.length < 16 * n then s.finish r 0 (zeros 10)
  else
    let jobs := s.adaptJobs r
    let (s1, cs) := (List.range n).foldl (fun (t : State × List Nat) i =>
      let (c, s1) := t.1.labelEntry jobs (sub es (16 * i) 16)
      (s1, setAt t.2 c (t.2.getD c 0 + 1))) (s, [0, 0, 0, 0, 0])
    s1.finish r 0 (cs.flatMap (leBytes 2))

/-! ### Control (R375, R379 to R381) -/

/-- ADAPT_SWAP (R375). -/
def cmdAdaptSwap (r : Nat) (s : State) (_ : List Byte) : State :=
  ((s.adaptJobs r).foldl (fun s j => match s.adaptOf j with
    | some a => if s.adaptState j = 0 then s else s.setAdapt j { a with wantSwap := true }
    | none => s) s).finish r 0 []

/-- ADAPT_PAUSE (R379, R380). -/
def cmdAdaptPause (r : Nat) (s : State) (_ : List Byte) : State :=
  ((s.adaptJobs r).foldl (fun s j => match s.adaptOf j with
    | some a =>
      if s.adaptState j ≠ 1 then s
      else if a.run.isSome then s.setAdapt j { a with pausing := true }
      else s.setF (feSlm j) FE_SLM_ADAPT_state 2
    | none => s) s).finish r 0 []

/-- ADAPT_RESUME (R379, R380). -/
def cmdAdaptResume (r : Nat) (s : State) (_ : List Byte) : State :=
  ((s.adaptJobs r).foldl (fun s j => if s.adaptState j = 2 then s.setF (feSlm j) FE_SLM_ADAPT_state 1 else s) s).finish r 0 []

/-- The init areas of a job can be read. -/
def initReadable (s : State) (a : AdaptSt) : Bool :=
  a.desc.layers.all fun l => s.gddrReady (64 * l.init) (2 * l.nOut * l.nIn)

/-- A rollback of a job (R381). -/
def rollback (s : State) (j : Nat) : State :=
  match s.adaptOf j with
  | none => s
  | some a =>
    let p := feSlm j
    if s.adaptState j = 0 then s
    else if !s.initReadable a then
      ((s.abandonStep j a).setAdapt j { a with run := none, pausing := false }).setF p FE_SLM_ADAPT_state 4
    else
      let s1 := (s.abandonStep j a).adaptInit a.desc 0xE0
      let s2 := s1.setAdapt j { a with run := none, pausing := false, next := some 0, rollback := true, sinceSwap := 0 }
      let s3 := (s2.setF p FE_SLM_ADSTEP_t 0).setF p FE_SLM_ADAPT_pend 0
      if a.pausing || s3.adaptState j == 4 then s3.setF p FE_SLM_ADAPT_state 2 else s3

/-- ADAPT_ROLLBACK (R379, R381). -/
def cmdAdaptRollback (r : Nat) (s : State) (_ : List Byte) : State := ((s.adaptJobs r).foldl rollback s).finish r 0 []

/-! ### Steps and swaps -/

/-- The pair starts a step (R369): its batch leaves the queue, and samples whose captures are overwritten are discarded (R368). -/
def adaptStep (s : State) (j : Nat) : State :=
  match s.adaptOf j with
  | none => s
  | some a =>
    let n := a.desc.batch
    let soon := match a.lastStart with
      | some t => decide ((s.time.elapsed - t) * a.desc.rateMax < n * second)
      | none => false
    if s.adaptState j ≠ 1 ∨ a.run.isSome ∨ a.samples.length < n ∨ soon = true then s
    else
      let batch := a.samples.take n
      let good := batch.filter fun x => (s.sampleIn a.desc x).isSome
      let s1 := s.setAdapt j { a with samples := a.samples.drop n, run := some ⟨good, 0⟩, lastStart := some s.time.elapsed }
      (s1.wrapF (feSlm j) FE_SLM_ADSTEP_t).satF (feSlm j) FE_SLM_ADERR_dropped (batch.length - good.length)

/-- The step is complete (R369, R372, R375, R380). -/
def adaptStepDone (s : State) (j : Nat) : State :=
  match s.adaptOf j with
  | none => s
  | some a =>
    match a.run with
    | none => s
    | some x =>
      let s1 := s.stepRows a.desc (s.getF (feSlm j) FE_SLM_ADSTEP_t) x.batch (adaptRows a.desc)
      let due := decide (a.desc.swapSteps ≤ a.sinceSwap + 1)
      let s2 := s1.setAdapt j { a with
        run := none, pausing := false, wantSwap := a.wantSwap || due, sinceSwap := if due then 0 else a.sinceSwap + 1 }
      if a.pausing then s2.setF (feSlm j) FE_SLM_ADAPT_state 2 else s2

/-- A bank is free (R377). -/
def bankFree (s : State) (j b : Nat) (x : JobSt) : Bool :=
  s.getF (feSlm j) FE_SLM_ADAPT_bank != b && x.sets.all fun t => !t.begun || t.bank != b || t.complete

/-- WEIGHT_SWAP (R375 to R378): every layer is quantised into a free bank, which Slalom takes at the next boundary; where a rollback
marks that boundary the swap is discarded. -/
def weightSwap (s : State) (j : Nat) : State :=
  match s.job j, s.adaptOf j with
  | some x, some a =>
    let st := s.adaptState j
    match [1, 2].find? (fun b => s.bankFree j b x) with
    | none => s
    | some b =>
      if !a.wantSwap || a.run.isSome || !(st == 1 || st == 2) then s
      else
        let (s1, sat) := a.desc.layers.zipIdx.foldl (fun (t : State × Nat) l =>
          let (s1, n) := t.1.quantise a.desc l.2 l.1 b
          (s1, t.2 + n)) (s, 0)
        let s2 := s1.satF (feSlm j) FE_SLM_ADERR_qsat sat
        if a.rollback then s2.setAdapt j { a with wantSwap := false }
        else (s2.setAdapt j { a with wantSwap := false, next := some b }).setF (feSlm j) FE_SLM_ADAPT_pend b
  | _, _ => s

/-- An uncorrectable read of master, init or state (R380, R382). -/
def adaptFail (s : State) (j : Nat) : State :=
  match s.adaptOf j with
  | none => s
  | some a =>
    if s.adaptState j = 1 ∨ s.adaptState j = 2 then
      ((s.abandonStep j a).setAdapt j { a with run := none, pausing := false }).setF (feSlm j) FE_SLM_ADAPT_state 4
    else s

end State

/-! ### The commands -/

/-- ADAPT_LABEL (R368). -/
def execAdaptLabel (ring : Fin 8) (s : State) : Host.Outcome State Fault Refusal := s.eng (s.serve ring 0x40 (State.cmdAdaptLabel ring))
/-- ADAPT_SWAP (R375). -/
def execAdaptSwap (ring : Fin 8) (s : State) : Host.Outcome State Fault Refusal := s.eng (s.serve ring 0x41 (State.cmdAdaptSwap ring))
/-- ADAPT_PAUSE (R380). -/
def execAdaptPause (ring : Fin 8) (s : State) : Host.Outcome State Fault Refusal := s.eng (s.serve ring 0x42 (State.cmdAdaptPause ring))
/-- ADAPT_RESUME (R380). -/
def execAdaptResume (ring : Fin 8) (s : State) : Host.Outcome State Fault Refusal := s.eng (s.serve ring 0x43 (State.cmdAdaptResume ring))
/-- ADAPT_ROLLBACK (R381). -/
def execAdaptRollback (ring : Fin 8) (s : State) : Host.Outcome State Fault Refusal :=
  s.eng (s.serve ring 0x44 (State.cmdAdaptRollback ring))
/-- ADAPT_STEP (R369). -/
def execAdaptStep (j : Fin 4) (s : State) : Host.Outcome State Fault Refusal := s.eng (s.adaptStep j)
/-- ADAPT_STEP_DONE (R372). -/
def execAdaptStepDone (j : Fin 4) (s : State) : Host.Outcome State Fault Refusal := s.eng (s.adaptStepDone j)
/-- WEIGHT_SWAP (R377). -/
def execWeightSwap (j : Fin 4) (s : State) : Host.Outcome State Fault Refusal := s.eng (s.weightSwap j)

end Sys2Proof.Machine
end

