-- ==== Sys2Proof/Machine/Wax.lean ====
section
/-! DEFINITION. Wax: monitors, runs and trim sets (R579 to R595). A unit is numbered as `WaxSt.waiting` numbers it. -/

namespace Sys2Proof.Machine

/-- The range of the code at an index of a trim set (R583). -/
def trimRange (i : Nat) : Int × Int :=
  if i < 16 then (0, 31) else if i < 48 then (0, 127) else if i < 120 then (0, 15) else (-128, 127)

/-- The indices of a unit's codes (R583, R591). -/
def unitCodes (u : Nat) : List Nat :=
  if u < 8 then [u, 8 + u, 16 + 4 * u, 17 + 4 * u, 18 + 4 * u, 19 + 4 * u]
  else if u < 16 then (List.range 5).map fun l => 48 + 5 * (u - 8) + l
  else if u < 48 then [88 + (u - 16)]
  else (List.range 64).map (120 + ·)

/-- The bit of WX_STAT.pending that shows a unit (R595). -/
def unitClass (u : Nat) : Nat := if u < 8 then 0 else if u < 16 then 1 else if u < 48 then 2 else 3

/-- The junction temperatures of the wax sets in 0.1 °C (R584). -/
def waxTemps : List Int := [-400, -100, 200, 450, 700, 950, 1100]

/-- The code at an index, derived for Tj from two sets that bracket it (R585). -/
def interpolate (lo hi : List Nat) (tLo tHi tj : Int) (i : Nat) : Int :=
  let a : Int := lo.getD i 0
  let b : Int := hi.getD i 0
  rdivInt (a * (tHi - tLo) + (b - a) * (tj - tLo)) (tHi - tLo).toNat

/-- Codes 0 to 119 for Tj before they are clamped (R584, R585). -/
def derivedCodes (sets : List (List Nat)) (tj : Int) : List Int :=
  let mid := fun i => ((midTrims.getD i 0 : Nat) : Int)
  let of := fun k => (List.range 120).map fun i => (((sets.getD k []).getD i 0 : Nat) : Int)
  if sets.isEmpty then (List.range 120).map mid
  else if tj < -400 then of 0
  else if 1100 ≤ tj then of 6
  else
    match (List.range 6).find? (fun k => decide (waxTemps.getD k 0 ≤ tj ∧ tj < waxTemps.getD (k + 1) 0)) with
    | some k => (List.range 120).map
        (interpolate (sets.getD k []) (sets.getD (k + 1) []) (waxTemps.getD k 0) (waxTemps.getD (k + 1) 0) tj)
    | none => of 6

/-- A code clamped to its range, as a byte (R583, R586). -/
def clampCode (i : Nat) (v : Int) : Nat :=
  let r := trimRange i
  ofSigned 8 (if v < r.1 then r.1 else if r.2 < v then r.2 else v)

namespace State

/-- The Wax ADC runs (R566). -/
def adcRuns (s : State) : Bool := stateRuns s.clockState 58

/-- WX_STAT.pending shows the units that wait (R592). -/
def showWaiting (s : State) : State :=
  s.setF wxPage WX_STAT_pending ((s.wax.waiting.map unitClass).foldl setBit 0)

/-- A unit takes its codes of the newest set as one step (R591, R592); event bit 2 follows once none waits. -/
def waxTake (s : State) (u : Nat) : State :=
  if s.wax.waiting.contains u then
    let codes := (unitCodes u).foldl (fun c i => setAt c i (s.wax.newest.getD i 0)) s.wax.inForce
    let w := s.wax.waiting.filter (· != u)
    let s1 := ({ s with wax := { s.wax with inForce := codes, waiting := w } } : State).showWaiting
    s1.raiseIf w.isEmpty wxPage 2
  else s

/-- A run starts (R587, R588, R590): every monitor holds its value and is stale. -/
def waxStart (s : State) : State :=
  if s.flag wxPage WX_STAT_running || !s.adcRuns then s
  else
    let s1 := ({ s with wax := { s.wax with due := false } } : State).setF wxPage WX_STAT_running 1
    (List.range 64).foldl (fun s k => s.setF wxPage WX_MONk_stale 1 k) s1

/-- A write to WX_CTRL (R587, R595). -/
def wxCtrlWrite (a : Agent) (v : Nat) (s : State) : State :=
  let s1 := plainWrite a wxPage 0x40 v s
  if bit v 31 then s1.waxStart else s1

/-- WAX_TEMP_COMPARE (R587): the comparison, or the run that is due after Chalet or Off-season. -/
def waxCompare (s : State) : State :=
  if s.wax.due then (if s.psState = 0 then s.waxStart else s)
  else
    let thr := s.getF wxPage WX_CTRL_thr_c
    let d := s.hottest.1 - toSigned 16 (s.getF wxPage WX_LAST_TJ_tj)
    if thr ≠ 0 ∧ 10 * thr < d.natAbs then s.waxStart else s

/-- WAX_PERIOD (R587). -/
def waxPeriod (s : State) : State :=
  let m := s.getF wxPage WX_CTRL_period_min
  match s.wax.doneAt with
  | some t => if m ≠ 0 ∧ t + m * 60 * second ≤ s.time.elapsed then s.waxStart else s
  | none => s

/-- Events 5 and 6 of a run (R585, R586, R590 to R592): `measured` holds codes 120 to 183. The offsets and the PLLs take the set
at once, and so does a D-PHY port that does not receive. -/
def waxFinish (s : State) (tj : Int) (measured : List Int) : State :=
  if !s.flag wxPage WX_STAT_running then s
  else
    let raw := derivedCodes s.wax.sets tj ++ (List.range 64).map fun i => measured.getD i 0
    let codes : List Nat := (raw.zipIdx 0).map fun p => Machine.clampCode p.2 p.1
    let limit := (raw.zipIdx 0).any fun p => decide (p.1 < (trimRange p.2).1 ∨ (trimRange p.2).2 < p.1)
    let crc := crc32c (codes.map (BitVec.ofNat 8))
    let s1 := ((s.setF wxPage WX_STAT_running 0).setF wxPage WX_STAT_at_limit (b01 limit)).satF wxPage WX_STAT_runs
    let s2 := (s1.set64 wxPage WX_LAST_LO_t_lo WX_LAST_HI_t_hi s.ns).setF wxPage WX_LAST_TJ_tj (ofSigned 16 tj)
    let s3 := (s2.setF wxPage WX_CRC_crc crc).raise wxPage 0
    let s4 := if limit then (s3.raise wxPage 1).post wxPage 0x0809 else s3
    let s5 := { s4 with wax := { s4.wax with newest := codes, waiting := List.range 49, doneAt := some s4.time.elapsed } }
    let now := (List.range 33).map (16 + ·) ++ ((List.range 8).filter fun p => !s.flag (fePort p) FE_PORT_CTRL_rx_en).map (8 + ·)
    now.foldl waxTake s5.showWaiting

/-- MONITOR_CONVERSION (R580, R590). -/
def monitorConvert (s : State) (i v : Nat) : State :=
  if s.flag wxPage WX_STAT_running || !s.adcRuns then s
  else ((s.setF wxPage WX_MONk_value v i).setF wxPage WX_MONk_stale 0 i).showHot

/-- The Puppeteer loads the wax sets at boot (R584). -/
def waxLoad (s : State) : State :=
  let s1 := { s with wax := { s.wax with sets := s.store.cal } }
  if s.store.cal.isEmpty then ((s1.setF wxPage WX_STAT_cal_missing 1).raise wxPage 1).post wxPage 0x0809 else s1

/-- WX_DATA (R595). -/
def waxData (s : State) : Nat :=
  let t := s.getF wxPage WX_IDX_table
  let i := s.getF wxPage WX_IDX_index
  if t = 0 then s.wax.newest.getD i 0 else (s.wax.sets.getD (t - 1) []).getD i 0 % 256

end State

/-! ### The commands -/

/-- WAX_TEMP_COMPARE (R587). -/
def execWaxTempCompare (s : State) : Host.Outcome State Fault Refusal := s.eng s.waxCompare
/-- WAX_PERIOD (R587). -/
def execWaxPeriod (s : State) : Host.Outcome State Fault Refusal := s.eng s.waxPeriod
/-- WAX_RUN_CMD (R587): a write of WX_CTRL with run set. -/
def execWaxRunCmd (a : Agent) (v : Word) (s : State) : Host.Outcome State Fault Refusal :=
  (s.guardedWrite a wxPage 0x40 (setBit v.toNat 31) (State.wxCtrlWrite a)).done
/-- WAX_RUN_COMPLETE (R590). -/
def execWaxRunComplete (tj : Int) (measured : List Int) (s : State) : Host.Outcome State Fault Refusal :=
  s.eng (s.waxFinish tj measured)
/-- WAX_SET_APPLY (R591). -/
def execWaxSetApply (unit : Nat) (s : State) : Host.Outcome State Fault Refusal := s.eng (s.waxTake unit)
/-- MONITOR_CONVERSION (R580). -/
def execMonitorConversion (i : Fin 64) (value : BitVec 16) (s : State) : Host.Outcome State Fault Refusal :=
  s.eng (s.monitorConvert i value.toNat)

end Sys2Proof.Machine
end

