-- ==== Sys2Proof/Machine/Counters.lean ====
section
/-! DEFINITION. The collector of the PC_ page and the counters of the pages: loads, freezes, snapshots, dumps and bandwidth monitors
(R596 to R606). -/

namespace Sys2Proof.Machine

/-- Event numbers of a kind of page that R599 lists. -/
def cntEventOk (k : Kind) (ev : Nat) : Bool :=
  let most := match k with
    | .cr => 0x1A
    | .rk | .clRink | .clCore | .mxCh => 0x14
    | .fePort | .pxCommon | .tzPort | .nsCh => 0x11
    | .feSlm => 0x12
    | _ => 0
  decide (ev ≤ 3) || (decide (0x10 ≤ ev) && decide (ev ≤ most))

/-- Events that count clock cycles, which no command of the model stands for (R599). -/
def countsCycles (k : Kind) (ev : Nat) : Bool :=
  ev == 1 || (k == .cr && decide (0x13 ≤ ev ∧ ev ≤ 0x17)) || ((k == .rk || k == .clRink || k == .clCore || k == .mxCh) && ev == 0x13)

/-- The counter-bearing pages in BAR0 order (R596, R603). -/
def counterPages : List Nat :=
  (pageRuns.filter fun r => countsEvents r.1).flatMap (fun r => (List.range r.2.2).map fun i => r.2.1 + i * 0x1000) ++
    (List.range 16).flatMap fun n =>
      (rk n :: (List.range 8).map fun c => cr (8 * n + c)) ++ (clRink n :: (List.range 8).map fun c => clCore (8 * n + c))

namespace State

/-! ### Counter registers (R597, R598) -/

/-- A write to PC_SELi: an event number that R599 does not list is a reserved encoding. -/
def selWrite (a : Agent) (page i v : Nat) (s : State) : State :=
  let off := 0xF00 + 4 * i
  match pageInfo page with
  | some (k, _) =>
    if cntEventOk k (bits v 7 0) then plainWrite a page off v s
    else (plainWrite a page off (setBits v 7 0 (s.getF page PC_SELi_event i)) s).pgErr a page off 0x01 true
  | none => s

/-- A write to PC_CNTi_LO is held. -/
def cntLoWrite (page i v : Nat) (s : State) : State :=
  { s with cnt := { s.cnt with heldLo := tabPut (fun _ => 0) s.cnt.heldLo (page + 0xF20 + 8 * i) (v + 1) } }

/-- A write to PC_CNTi_HI loads both halves; the low half as it stands where no write of it is held. -/
def cntHiWrite (page i v : Nat) (s : State) : State :=
  let key := page + 0xF20 + 8 * i
  let lo := match tabGet (fun _ => 0) s.cnt.heldLo key with
    | 0 => s.getF page PC_CNTi_LO_cnt_lo i
    | w + 1 => w
  let s1 := { s with cnt := { s.cnt with heldLo := tabPut (fun _ => 0) s.cnt.heldLo key 0 } }
  s1.setCount48 page i (lo + v % 2 ^ 16 * 2 ^ 32)

/-- COUNTER_WRAP (R598, R604): the last of a counter's events before its wrap; of a counter of cycles, the cycles up to it. -/
def counterWrap (s : State) (page i : Nat) : State :=
  match pageInfo page with
  | none => s
  | some (k, _) =>
    let ev := s.getF page PC_SELi_event i
    if !countsEvents k || !s.domLive page || s.flag pcPage PC_CTRL_frozen || !s.flag page PC_SELi_en i || ev == 0 ||
        (!countsCycles k ev && s.count48 page i != 2 ^ 48 - 1) then s
    else (s.setCount48 page i 0).counterWrapped page i

/-! ### Freeze, snapshot and collection (R601 to R603) -/

/-- Counting starts again (R601). -/
def thaw (s : State) : State := s.setF pcPage PC_CTRL_frozen 0

/-- Every counter is copied into its snapshot registers (R602); a fenced domain takes no snapshot. -/
def snapshot (s : State) : State :=
  let inRange := fun (lo key : Nat) => decide (lo ≤ key % 0x1000 ∧ key % 0x1000 < lo + 0x40) &&
    isCounting (key / 0x1000 * 0x1000) && s.domLive (key / 0x1000 * 0x1000)
  let s1 := { s with regs := s.regs.filter fun e => !inRange 0xF60 e.1 }
  (s.regs.filter fun e => inRange 0xF20 e.1).foldl (fun t e => t.setWord (e.1 + 0x40) (s.word e.1)) s1

/-- A snapshot, and the dump it leads to (R603); ignored while a collection is in progress. -/
def startCollect (s : State) (addr : Nat) (toGddr : Bool) (reply : Option Nat) : State :=
  if s.cnt.collect.isSome then s
  else
    let s1 := s.snapshot.setF pcPage PC_CTRL_busy 1
    { s1 with cnt := { s1.cnt with collect := some ⟨s1.ns, addr, toGddr, reply⟩ } }

/-- A write to PC_CTRL (R601 to R603, R606): of freeze and thaw together, the freeze applies. -/
def pcCtrlWrite (a : Agent) (v : Nat) (s : State) : State :=
  if bit v 28 && !s.enabled pcPage then s.refuse a pcPage 0x40
  else
  let s1 := plainWrite a pcPage 0x40 v s
  let s2 := if bit v 31 then s1.freeze else if bit v 30 then s1.thaw else s1
  let s3 := if bit v 29 then s2.snapshot else s2
  if bit v 28 then
    s3.startCollect (s3.get64 pcPage PC_DST_LO_addr_lo PC_DST_HI_addr_hi / 64 * 64) (s3.flag pcPage PC_CTRL_dest) none
  else s3

/-- The 64-byte entry of a page (R603). -/
def dumpEntry (s : State) (page : Nat) : List Byte :=
  let live := s.answers page
  let evs := (List.range 8).map fun i => BitVec.ofNat 8 (s.getF page PC_SELi_event i)
  let snaps := (List.range 8).flatMap fun i =>
    if live then leBytes 4 (s.getF page PC_SNAPi_LO_snap_lo i) ++ leBytes 2 (s.getF page PC_SNAPi_HI_snap_hi i) else zeros 6
  let en := (List.range 8).foldl (fun w i => if s.flag page PC_SELi_en i then setBit w i else w) 0
  leBytes 4 (if live then pgId page else 0xFFFFFFFF) ++ evs ++ snaps ++ leBytes 1 en ++ zeros 3

/-- The dump's 20,480 bytes (R603). -/
def dumpBytes (s : State) (snapNs : Nat) : List Byte :=
  leBytes 4 0x44435841 ++ leBytes 1 1 ++ leBytes 1 (b01 (s.flag pcPage PC_CTRL_frozen)) ++ leBytes 2 319 ++ leBytes 8 snapNs ++
    zeros 48 ++ counterPages.flatMap s.dumpEntry

/-- COLLECTION_COMPLETE (R600, R603). -/
def collectDone (s : State) : State :=
  match s.cnt.collect with
  | none => s
  | some c =>
    let d := s.dumpBytes c.snapNs
    let s1 := if c.toGddr then s.gdWr c.addr d else s.pcieWr c.addr d
    let s2 := { s1 with cnt := { s1.cnt with collect := none } }
    let s3 := (s2.setF pcPage PC_CTRL_busy 0).raise pcPage 1
    match c.reply with
    | some r => s3.finish r 0 []
    | none => s3

/-- COUNTER_DUMP (R600). -/
def cmdCounterDump (r : Nat) (s : State) (f : List Byte) : State := s.startCollect (le (frameBody f) 0 8) false (some r)

/-! ### Bandwidth monitors (R605) -/

/-- A write to PC_BW_CFGk. -/
def bwCfgWrite (a : Agent) (k v : Nat) (s : State) : State :=
  let s1 := plainWrite a pcPage (0x80 + 0x10 * k) v s
  let s2 := ((s1.setF pcPage PC_BW_LASTk_units 0 k).setF pcPage PC_BW_PEAKk_units 0 k).setF pcPage PC_BW_CNTk_windows 0 k
  { s2 with cnt := { s2.cnt with
    bwBytes := tabPut (fun _ => 0) s2.cnt.bwBytes k 0, bwStart := tabPut (fun _ => 0) s2.cnt.bwStart k s2.time.elapsed } }

/-- BW_WINDOW_END: the monitor's window is over once its time has passed. -/
def bwWindowEnd (s : State) (k : Nat) : State :=
  let stop := tabGet (fun _ => 0) s.cnt.bwStart k + s.getF pcPage PC_BW_CFGk_window_us k * 1000 * 2 ^ 32
  if !s.flag pcPage PC_BW_CFGk_en k || decide (s.time.elapsed < stop) then s
  else
    let n := tabGet (fun _ => 0) s.cnt.bwBytes k / 64
    let s1 := s.setF pcPage PC_BW_LASTk_units n k
    let s2 := if s1.getF pcPage PC_BW_PEAKk_units k < n then s1.setF pcPage PC_BW_PEAKk_units n k else s1
    let s3 := s2.wrapF pcPage PC_BW_CNTk_windows 1 k
    let s4 := { s3 with cnt := { s3.cnt with
      bwBytes := tabPut (fun _ => 0) s3.cnt.bwBytes k 0, bwStart := tabPut (fun _ => 0) s3.cnt.bwStart k stop } }
    s4.raise pcPage 2

end State

/-! ### The commands -/

/-- COUNTER_FREEZE (R601): a write of PC_CTRL with freeze set. -/
def execCounterFreeze (a : Agent) (v : Word) (s : State) : Host.Outcome State Fault Refusal :=
  (s.guardedWrite a pcPage 0x40 (setBit v.toNat 31) (State.pcCtrlWrite a)).done
/-- COUNTER_THAW (R601). -/
def execCounterThaw (a : Agent) (v : Word) (s : State) : Host.Outcome State Fault Refusal :=
  (s.guardedWrite a pcPage 0x40 (setBit v.toNat 30) (State.pcCtrlWrite a)).done
/-- COUNTER_SNAPSHOT (R602). -/
def execCounterSnapshot (a : Agent) (v : Word) (s : State) : Host.Outcome State Fault Refusal :=
  (s.guardedWrite a pcPage 0x40 (setBit v.toNat 29) (State.pcCtrlWrite a)).done
/-- COUNTER_COLLECT (R603). -/
def execCounterCollect (a : Agent) (v : Word) (s : State) : Host.Outcome State Fault Refusal :=
  (s.guardedWrite a pcPage 0x40 (setBit v.toNat 28) (State.pcCtrlWrite a)).done
/-- COLLECTION_COMPLETE (R603). -/
def execCollectionComplete (s : State) : Host.Outcome State Fault Refusal := s.eng s.collectDone
/-- COUNTER_DUMP (R600): taken once the collector is free. -/
def execCounterDump (ring : Fin 8) (s : State) : Host.Outcome State Fault Refusal :=
  s.eng (if s.cnt.collect.isSome then s else s.serve ring 0x71 (State.cmdCounterDump ring))
/-- COUNTER_LOAD (R598): a write of PC_CNTi_HI. -/
def execCounterLoad (a : Agent) (page : Nat) (i : Fin 8) (v : Word) (s : State) : Host.Outcome State Fault Refusal :=
  (s.guardedWrite a page (0xF24 + 8 * i) v.toNat (State.cntHiWrite page i)).done
/-- COUNTER_WRAP (R604). -/
def execCounterWrap (page : Nat) (i : Fin 8) (s : State) : Host.Outcome State Fault Refusal := s.eng (s.counterWrap page i)
/-- BW_MONITOR_CONFIG (R605): a write of PC_BW_CFGk. -/
def execBwMonitorConfig (a : Agent) (k : Fin 16) (v : Word) (s : State) : Host.Outcome State Fault Refusal :=
  (s.guardedWrite a pcPage (0x80 + 0x10 * k) v.toNat (State.bwCfgWrite a k)).done
/-- BW_WINDOW_END (R605). -/
def execBwWindowEnd (k : Fin 16) (s : State) : Host.Outcome State Fault Refusal := s.eng (s.bwWindowEnd k)

end Sys2Proof.Machine
end

