-- ==== Sys2Proof/Machine/Mem.lean ====
section
/-! DEFINITION. The GDDR6 controller (R385 to R403) and BAR2 (R501, R502): training, ECC, link retries, patrol, refresh. -/

namespace Sys2Proof.Machine

namespace State

/-! ### Training (R398, R399) -/

/-- A channel fails training (R398, R399): the device halts. -/
def trainFail (s : State) (c : Nat) : State := s.post (mxCh c) 0x0509

/-- GDDR6_TRAINING: events 7 and 8 of bring-up (R398, R611, R612). The trained rate is free in the range of R385. -/
def gddrTrain (s : State) (ok : Nat) : State :=
  if s.stage ≠ 3 ∨ s.getF mxCommonPage MX_STAT_trained ≠ 0 then s
  else
    let s1 := (s.setF mxCommonPage MX_CFG_ecc_en (b01 (!s.sec.eccOff)))
    let s2 := { s1 with woDone := (mxCommonPage + 0x40) :: s1.woDone.filter (· != mxCommonPage + 0x40) }
    let (f, s3) := s2.draw
    let s4 := (s3.setF mxCommonPage MX_STAT_trained ok).setF mxCommonPage MX_STAT_rate_mbps (10000 + f % 8001)
    let s5 := (List.range 8).foldl waxTake s4
    (List.range 8).foldl (fun s c => if bit ok c then s else s.trainFail c) s5

/-- GDDR6_INIT_DONE (R389): every block is valid and zero. -/
def gddrInit (s : State) : State :=
  if s.getF mxCommonPage MX_STAT_trained = 255 ∧ s.eccOn ∧ !s.flag mxCommonPage MX_STAT_init_done then
    (({ s with gddr := [] } : State).setF mxCommonPage MX_STAT_init_done 1).raise mxCommonPage 0
  else s

/-- A full retrain of a channel starts (R399). -/
def startRetrain (s : State) (c : Nat) : State := s.setF (mxCh c) MX_CH_STAT_state 3

/-- A write to MX_CH_CTRL (R399, R403). -/
def chCtrlWrite (a : Agent) (c v : Nat) (s : State) : State :=
  let s1 := plainWrite a (mxCh c) 0x40 v s
  if bit v 3 && !s.enabled (mxCh c) then s.refuse a (mxCh c) 0x40
  else if bit v 3 then s1.startRetrain c else s1

/-- The channel state that a settled power state gives (R401). -/
def channelState (s : State) : Nat :=
  match s.psState with
  | 2 => 1
  | 3 | 4 | 5 => 2
  | _ => 0

/-- GDDR6_RETRAIN_DONE (R399, R591). -/
def retrainDone (s : State) (c : Nat) (ok : Bool) : State :=
  if s.getF (mxCh c) MX_CH_STAT_state ≠ 3 then s
  else
    let s1 := s.setF (mxCh c) MX_CH_STAT_state s.channelState
    if ok then (s1.waxTake c).raise (mxCh c) 4 else s1.trainFail c

/-! ### Requests (R386, R389 to R394) -/

/-- A posting at most once per 1 ms of timebase on a page (R391, R402). -/
def postMs (s : State) (page code : Nat) : State :=
  let key := markKey page code 0
  if s.rateOpen key 1000000 then (s.postRecord page code 0xFF).rateMark key else s.countEvt page 0x03 1

/-- A word corrected in block n (R391). -/
def gddrCe (s : State) (n : Nat) : State :=
  let p := mxCh (gddrChannel n)
  (((s.satF p MX_CH_ECC_ce).setF p MX_CH_ECC_ADDR_block n).raise p 0).postMs p 0x0505

/-- A request fails to its agent (R391): Chairlift i, Gondola group 144 + g, DMA channel 160 + c, adaptation 176 + j; every other agent
sees only the answer. -/
def requestFails (s : State) (agent addr : Nat) : State :=
  if agent < 144 then
    match (s.lift agent).find? (fun t => t.level == 2 && !t.dead) with
    | none => s
    | some t =>
      let s1 := (s.setLift agent ((s.lift agent).erase t)).raise (clOf agent) 1
      match t.via, s1.walking t.core with
      | some g, _ => s1.runFails g
      | none, some p => s1.endEarly t.core p
      | none, none => s1
  else if agent < 160 then s.runFails (agent - 144)
  else if agent < 176 then
    let c := agent - 160
    let r := s.dmaRun c
    if r.slot < 8 then s.dmaBad c r.slot 2 (min (addr - s.slotSrc c r.slot) (s.getF (dmCh c) DM_SLOTn_CNT_count r.slot)) else s
  else if agent < 180 then s.adaptFail (agent - 176)
  else s

/-- The link part of a request (R393, R394): `errs` failing attempts of a burst. Did it go through, and the state. -/
def linkRetry (s : State) (c errs : Nat) : Bool × State :=
  if errs = 0 then (true, s)
  else
    let p := mxCh c
    let s1 := (s.satF p MX_CH_EDC_retries).countEvt p 0x14 1
    if errs ≤ s1.getF p MX_CH_CTRL_edc_retries then (true, (s1.raise p 2).postMs p 0x0507)
    else (false, (((s1.satF p MX_CH_EDC_fails).raise p 3).post p 0x0508).startRetrain c)

/-- A request of R386. -/
def requestShaped (s : State) (addr n : Nat) : Bool :=
  addr % 64 == 0 && n % 64 == 0 && decide (0 < n ∧ n ≤ 512 ∧ addr + n ≤ s.gddrEnd)

/-- GDDR6_REQUEST: one request is served; the errors are those of its first block. -/
def gddrRequest (s : State) (agent : Nat) (write : Bool) (addr : Nat) (data : List Byte) (len errBits edcErrors : Nat) : State :=
  let n := if write then data.length else len
  let c := gddrChannel (addr / 64)
  if !s.requestShaped addr n || s.getF (mxCh c) MX_CH_STAT_state == 3 then s
  else if s.eccOn && !s.flag mxCommonPage MX_STAT_init_done then { s.requestFails agent addr with rbytes := [] }
  else
    let (ok, s1) := s.linkRetry c edcErrors
    if !ok then { s1.requestFails agent addr with rbytes := [] }
    else if write then { s1.gdWr addr data with rbytes := [] }
    else if s1.eccOn && decide (2 ≤ errBits) then { (s1.gddrUe addr).requestFails agent addr with rbytes := [] }
    else
      let s2 := (if s1.eccOn && errBits == 1 then s1.gddrCe (addr / 64) else s1).gdCount addr n false
      if !s1.eccOn && errBits != 0 then
        let (bs, s3) := s2.drawBytes n
        { s3 with rbytes := bs }
      else { s2 with rbytes := s2.gddrRd addr n }

/-- GDDR6_PATROL_READ (R392): the read of the group of a block. -/
def patrolRead (s : State) (c block errBits : Nat) : State :=
  if s.getF mxCommonPage MX_SCRUB_period_ms = 0 ∨ !s.eccOn ∨ !s.flag mxCommonPage MX_STAT_init_done ∨ s.gddrEnd ≤ block * 64 ∨
      gddrChannel block ≠ c ∨ s.getF (mxCh c) MX_CH_STAT_state ≠ 0 then s
  else
    let s1 := (s.countBw (8 + c) 448).countEvt (mxCh c) 0x10 7
    match errBits with
    | 0 => s1
    | 1 => s1.gddrCe block
    | _ => s1.gddrUe (block * 64)

/-- GDDR6_REFRESH (R400, R591). -/
def gddrRefresh (s : State) (c : Nat) : State := if s.getF (mxCh c) MX_CH_STAT_state = 0 then s.waxTake c else s

/-- GDDR6_TEMPERATURE_READ (R385): only while the controller runs. -/
def tempRead (s : State) (c : Nat) (t : Int) : State :=
  if stateRuns s.clockState (5 + c) then s.setF (mxCh c) MX_CH_STAT_temp_c (ofSigned 16 t) else s

/-! ### BAR2 (R501, R502, R608) -/

/-- The local address of a BAR2 offset. -/
def bar2Addr (s : State) (off : Nat) : Nat := s.getF pxCommonPage PX_BAR2_win * 2 ^ 28 + off

/-- The part of an access that lies in the local space, in bytes. -/
def bar2Inside (s : State) (off n : Nat) : Nat := min n (s.gddrEnd - s.bar2Addr off)

/-- A read through BAR2: 0xFF for what lies beyond the end or cannot be corrected. -/
def bar2Read (s : State) (off n : Nat) (ue : Bool) : State :=
  let a := s.bar2Addr off
  let m := s.bar2Inside off n
  let all := List.replicate n (0xFF : Byte)
  let s0 := (s.countBw 24 n).countEvt pxCommonPage 0x11 n
  if m = 0 then { s0 with rbytes := all }
  else if s0.eccOn && !s0.flag mxCommonPage MX_STAT_init_done then { s0 with rbytes := all }
  else if ue && s0.eccOn then { s0.gddrUe a with rbytes := all }
  else { s0.gdCount a m false with rbytes := s0.gddrRdPath true a m ++ List.replicate (n - m) 0xFF }

/-- A write through BAR2: blocks that it does not cover are read first (R502). -/
def bar2Write (s : State) (off : Nat) (data : List Byte) (ue : Bool) : State :=
  let a := s.bar2Addr off
  let m := s.bar2Inside off data.length
  let part := a % 64 != 0 || (a + m) % 64 != 0
  let s0 := (s.countBw 25 data.length).countEvt pxCommonPage 0x10 data.length
  if m = 0 || (s0.eccOn && !s0.flag mxCommonPage MX_STAT_init_done) then s0
  else if part && ue && s0.eccOn then s0.gddrUe a
  else (if part then s0.gdCount a m false else s0).gddrWrPath true a (data.take m)

/-- An access of the host through BAR2, which wakes from Lodge (R570) and answers nothing before READY (R608). -/
def bar2Now (s : State) (write : Bool) (off : Nat) (data : List Byte) (len : Nat) (ue : Bool) : State :=
  if !s.readyReached then
    let s1 := s.badAccess .host 2 off write
    if write then s1 else { s1 with rbytes := List.replicate len 0xFF }
  else
    let s1 := if s.psState = 3 then s.wake (2 ^ 16) else s
    if write then s1.bar2Write off data ue else s1.bar2Read off len ue

end State

/-! ### The commands -/

/-- GDDR6_TRAINING (R398). -/
def execGddr6Training (ok : BitVec 8) (s : State) : Host.Outcome State Fault Refusal := s.eng (s.gddrTrain ok.toNat)
/-- GDDR6_INIT_DONE (R389). -/
def execGddr6InitDone (s : State) : Host.Outcome State Fault Refusal := s.eng s.gddrInit
/-- GDDR6_REQUEST (R391). -/
def execGddr6Request (agent : Nat) (write : Bool) (addr : Nat) (data : List Byte) (len errBits edcErrors : Nat) (s : State) :
    Host.Outcome State Fault Refusal := s.eng (s.gddrRequest agent write addr data len errBits edcErrors)
/-- GDDR6_RETRAIN (R399): a write of MX_CH_CTRL with retrain set. -/
def execGddr6Retrain (a : Agent) (c : Fin 8) (v : Word) (s : State) : Host.Outcome State Fault Refusal :=
  (s.guardedWrite a (mxCh c) 0x40 (setBit v.toNat 3) (State.chCtrlWrite a c)).done
/-- GDDR6_RETRAIN_DONE (R399). -/
def execGddr6RetrainDone (c : Fin 8) (ok : Bool) (s : State) : Host.Outcome State Fault Refusal := s.eng (s.retrainDone c ok)
/-- GDDR6_PATROL_READ (R392). -/
def execGddr6PatrolRead (c : Fin 8) (block : Word) (errBits : Nat) (s : State) : Host.Outcome State Fault Refusal :=
  s.eng (s.patrolRead c block.toNat errBits)
/-- GDDR6_REFRESH (R400). -/
def execGddr6Refresh (c : Fin 8) (s : State) : Host.Outcome State Fault Refusal := s.eng (s.gddrRefresh c)
/-- GDDR6_TEMPERATURE_READ (R385). -/
def execGddr6TemperatureRead (c : Fin 8) (tempC : Int) (s : State) : Host.Outcome State Fault Refusal := s.eng (s.tempRead c tempC)

/-- BAR2_ACCESS (R501): an access beyond BAR2 names no address. -/
def execBar2Access (write : Bool) (off : Nat) (data : List Byte) (len : Nat) (uncorrectable : Bool) (s : State) :
    Host.Outcome State Fault Refusal :=
  if 2 ^ s.link.bar2Log2 < off + (if write then data.length else len) then .fault .addressOutsideBar
  else if s.hostWaits then (s.holdHost (.bar2 write off data len uncorrectable)).done
  else (s.bar2Now write off data len uncorrectable).done

end Sys2Proof.Machine
end

