-- ==== Sys2Proof/Machine/Resil.lean ====
section
/-! DEFINITION. Resilience (R408 to R419): SRAM errors, control parity, watchdog, commanded fences and hot reset. -/

namespace Sys2Proof.Machine

/-- The page of the block that an agent numbered as GDDR6_REQUEST's belongs to. -/
def agentPage (agent : Nat) : Nat :=
  if agent < 144 then clOf agent else if agent < 160 then gdPage else if agent < 176 then dmCh (agent - 160)
  else if agent < 180 then feSlm (agent - 176) else if agent = 180 then nsCommonPage else if agent = 181 then pxCommonPage else ppMbPage

/-- The page of the block that holds an SRAM (R410, R429). -/
def sramPage : SramPlace → Nat
  | .core k _ => cr k
  | .spad n => rk n
  | .stripe _ => feCommonPage
  | .puppeteer => ppMbPage
  | .shared agent => agentPage agent

/-- An address lies in a buffer of a stream configured by these words (R75). -/
def inBuffer (addr geom store bufWord b : Nat) : Bool :=
  let base := bufAddr geom store bufWord b
  let n := bufBytes (geomH geom) (geomPx geom) (storeChans store) (storeFmt store)
  decide (base ≤ addr ∧ addr < base + n)

namespace State

/-! ### SRAM errors (R409 to R411) -/

/-- The SRAM holds its contents: its domain is live and the power state keeps it (R414, R566). -/
def sramLive (s : State) (p : SramPlace) : Bool :=
  let ps := s.clockState
  match p with
  | .core _ _ | .spad _ => s.domLive (sramPage p) && decide (ps < 3)
  | .stripe _ | .shared _ => decide (ps < 4)
  | .puppeteer => true

/-- A single-bit error (R410): the block's count, its event and SRAM_CE. -/
def sramCe (s : State) (p : SramPlace) : State :=
  let page := sramPage p
  let s1 := match p with
    | .core k m =>
      let f := match m with | 0 => CR_ECC_wbuf_ce | 1 => CR_ECC_abuf_ce | 2 => CR_ECC_acc_ce | _ => CR_ECC_rowbuf_ce
      (s.satF (cr k) f).raise (cr k) 8
    | .spad n => (s.satF (rk n) RK_SPAD_ECC_ce).raise (rk n) 6
    | _ => s
  s1.postMs page 0x0501

/-- A word of stripe memory is lost (R411, R641, R327): the stripe whose buffer holds it is lost. -/
def stripeUe (s : State) (addr : Nat) : State :=
  let s0 := s.post feCommonPage 0x0503
  let s1 := (List.range 32).foldl (fun s k =>
    match (s.strm k).cfg with
    | none => s
    | some c =>
      match (s.strm k).opened.find? (fun o => match o.buf with | some b => inBuffer addr c.geom c.store c.buf b | none => false) with
      | some o => match o.buf with
        | some b => (s.loseStripe k o.idx o.seq o.stamp0 c).freeBuffer k b
        | none => s
      | none => s) s0
  let hit := fun (i : StripeInfo) => !i.lost && inBuffer addr i.geom i.store i.bufWord i.buf
  let held := fun (s : State) (i : StripeInfo) => s.jobs.any fun e => match e.2 with
    | some x => x.sets.any fun t => t.members.any fun m => m.held && m.info.stream == i.stream && m.info.seq == i.seq
    | none => false
  let gone := s1.fe.handed.filter fun i => hit i && !held s1 i
  let s2 := { s1 with fe := { s1.fe with handed := s1.fe.handed.map fun i => if hit i then { i with lost := true } else i } }
  let s3 := gone.foldl (fun s i => s.freeBuffer i.stream i.buf) s2
  (List.range 4).foldl (fun s j =>
    match s.job j with
    | none => s
    | some x =>
      match x.sets.findSome? (fun t => t.members.find? fun m => m.held && hit m.info) with
      | some m => s.loseMember j m.info.stream m.info.seq
      | none => s) s3

/-- SRAM_UNCORRECTABLE (R411). -/
def sramUe (s : State) (p : SramPlace) : State :=
  if !s.sramLive p then s
  else
    match p with
    | .core k _ => s.post (cr k) 0x0502
    | .spad n => s.post (rk n) 0x0502
    | .stripe a => s.stripeUe a
    | .puppeteer => s.post dvPage 0x0504
    | .shared agent => s.requestFails agent 0

/-- SRAM_PATROL_READ (R409, R410). -/
def sramPatrol (s : State) (p : SramPlace) (errBits : Nat) : State :=
  if !s.sramLive p then s
  else
    match errBits with
    | 0 => s
    | 1 => s.sramCe p
    | _ => s.sramUe p

/-- SHARED_HEADER_ERROR (R412). -/
def headerError (s : State) (corrected : Bool) : State :=
  if corrected then s.satF pwPage PW_SHARED_corrected else s.satF pwPage PW_SHARED_dropped

/-! ### Domain codes (R408, R429) -/

/-- CTRL_PARITY on a page of the domain, or on its Strings segment. -/
def ctrlParity (s : State) (d page : Nat) (segment : Bool) : State :=
  if s.domState d = 3 then s
  else if segment || pageDomain page != some d || (pageInfo page).isNone then s.post pwPage 0x0704 d
  else s.post page 0x0704

/-- DOMAIN_WATCHDOG: a fenced or resetting domain is not polled. -/
def watchdog (s : State) (d : Nat) : State := if s.domState d = 0 then s.post pwPage 0x0705 d else s

/-! ### Hot reset (R415 to R417) -/

/-- A fenced domain goes to hot reset, or is disabled at the limit (R415). -/
def startReset (s : State) (d : Nat) : State :=
  if (s.recentResets d).length < s.getF pwPage PW_DOM_CTRLd_reset_max d then
    (s.setDomain d { s.domainAt d with resetTimes := s.time.elapsed :: s.recentResets d }).setF pwPage PW_DOM_STATd_state 2 d
  else (s.setF pwPage PW_DOM_STATd_state 3 d).raise pwPage (24 + d)

/-- A write to PW_DOM_CTRLd (R413, R415, R419, R430): each action meets the state before the write. -/
def domCtrlWrite (a : Agent) (d v : Nat) (s : State) : State :=
  let off := 0x200 + 0x20 * d
  let st := s.domState d
  let s1 := plainWrite a pwPage off v s
  let s2 := if bit v 31 then (if st = 0 then s1.fence d 0 else s1.refuse a pwPage off) else s1
  if bit v 30 then (if st = 1 then s2.startReset d else s2.refuse a pwPage off) else s2

/-- A write to PW_DOM_THRd starts a window (R418). -/
def domThrWrite (a : Agent) (d v : Nat) (s : State) : State :=
  let s1 := plainWrite a pwPage (0x208 + 0x20 * d) v s
  (s1.setDomain d { s1.domainAt d with winStart := s1.time.elapsed }).setF pwPage PW_DOM_CNTd_events 0 d

/-- AUTO_RESET (R415). -/
def autoReset (s : State) (d : Nat) : State :=
  if s.domState d = 1 ∧ s.flag pwPage PW_DOM_CTRLd_auto_reset d then s.startReset d else s

/-- HOT_RESET_DONE (R41, R415 to R417, R593): the domain is live again, its pages at their defaults and re-armed, its memories
zero. -/
def resetDone (s : State) (d : Nat) : State :=
  if s.domState d ≠ 2 then s
  else
    let s0 := (List.range 4).foldl (fun s i => (s.loseRink (4 * d + i)).rinkPagesReset (4 * d + i)) s
    let s1 := { s0 with woDone := s0.woDone.filter fun key => pageDomain (key / 0x1000 * 0x1000) != some d }
    let s2 := (s1.setF pwPage PW_DOM_STATd_state 0 d).setF ckPage CK_LOCK_locked (s1.getF ckPage CK_LOCK_locked ||| domainPlls d)
    let s3 := (List.range 4).foldl (fun s j =>
      if bit (s.getF (feSlm j) FE_SLM_STAT_job_dom) d then
        s.setF (feSlm j) FE_SLM_STAT_live (setBit (s.getF (feSlm j) FE_SLM_STAT_live) d)
      else s) s2
    s3.raise pwPage (20 + d)

/-- HOT_RESET_FAIL (R415): back to FENCED with the code recorded. -/
def resetFail (s : State) (d code : Nat) : State :=
  if s.domState d = 2 then (s.setF pwPage PW_DOM_STATd_state 1 d).setF pwPage PW_DOM_STATd_last_code code d else s

/-- EVENT_WINDOW_END (R418). -/
def eventWindowEnd (s : State) (d : Nat) : State :=
  let x := s.domainAt d
  let stop := x.winStart + s.getF pwPage PW_DOM_THRd_window_ms d * 1000000 * 2 ^ 32
  if stop ≤ s.time.elapsed then (s.setDomain d { x with winStart := stop }).setF pwPage PW_DOM_CNTd_events 0 d else s

end State

/-! ### The commands -/

/-- SRAM_PATROL_READ (R409). -/
def execSramPatrolRead (place : SramPlace) (errBits : Nat) (s : State) : Host.Outcome State Fault Refusal :=
  s.eng (s.sramPatrol place errBits)
/-- SRAM_UNCORRECTABLE (R411). -/
def execSramUncorrectable (place : SramPlace) (s : State) : Host.Outcome State Fault Refusal := s.eng (s.sramUe place)
/-- SHARED_HEADER_ERROR (R412). -/
def execSharedHeaderError (corrected : Bool) (s : State) : Host.Outcome State Fault Refusal := s.eng (s.headerError corrected)
/-- CTRL_PARITY (R429). -/
def execCtrlParity (d : Fin 4) (page : Nat) (segment : Bool) (s : State) : Host.Outcome State Fault Refusal :=
  s.eng (s.ctrlParity d page segment)
/-- DOMAIN_WATCHDOG (R429). -/
def execDomainWatchdog (d : Fin 4) (s : State) : Host.Outcome State Fault Refusal := s.eng (s.watchdog d)
/-- FENCE_CMD (R413): a write of PW_DOM_CTRLd with fence set. -/
def execFenceCmd (a : Agent) (d : Fin 4) (v : Word) (s : State) : Host.Outcome State Fault Refusal :=
  (s.guardedWrite a pwPage (0x200 + 0x20 * d) (setBit v.toNat 31) (State.domCtrlWrite a d)).done
/-- HOT_RESET_CMD (R415): a write of PW_DOM_CTRLd with reset set. -/
def execHotResetCmd (a : Agent) (d : Fin 4) (v : Word) (s : State) : Host.Outcome State Fault Refusal :=
  (s.guardedWrite a pwPage (0x200 + 0x20 * d) (setBit v.toNat 30) (State.domCtrlWrite a d)).done
/-- AUTO_RESET (R415). -/
def execAutoReset (d : Fin 4) (s : State) : Host.Outcome State Fault Refusal := s.eng (s.autoReset d)
/-- HOT_RESET_DONE (R416). -/
def execHotResetDone (d : Fin 4) (s : State) : Host.Outcome State Fault Refusal := s.eng (s.resetDone d)
/-- HOT_RESET_FAIL (R415). -/
def execHotResetFail (d : Fin 4) (code : BitVec 16) (s : State) : Host.Outcome State Fault Refusal := s.eng (s.resetFail d code.toNat)
/-- EVENT_WINDOW_END (R418). -/
def execEventWindowEnd (d : Fin 4) (s : State) : Host.Outcome State Fault Refusal := s.eng (s.eventWindowEnd d)

end Sys2Proof.Machine
end

