-- ==== Sys2Proof/Machine/Store.lean ====
section
/-! DEFINITION. The NAND store (R470 to R497): the profile, blocks and their wear, partitions, the write counter, the journal, and the
store commands. A physical block is numbered ((channel × 4 + chip enable) × 4 + LUN) × blocks per LUN + block. -/

namespace Sys2Proof.Machine

/-- A block at rest. -/
def BlockSt.fresh : BlockSt := { erases := 0, reads := 0, pages := 0, bad := 0, owner := 0, marked := false, scanAt := 0 }

/-- Keeps the entries of a list that satisfy a test, with a number to choose the least of them by; none where no entry does. -/
def leastBy (f : Nat → Nat) : List Nat → Option Nat
  | [] => none
  | b :: bs => match leastBy f bs with
    | some c => if f c < f b then some c else some b
    | none => some b

namespace State

/-! ### Geometry (R472, R476 to R478) -/

def prof (s : State) (off n : Nat) : Nat := le s.store.profile off n
def pageBytes (s : State) : Nat := max 4096 (s.prof 0x08 2)
def lunBlocks (s : State) : Nat := s.prof 0x10 4
/-- The channel of a block, and its place on the channel. -/
def blkChan (s : State) (b : Nat) : Nat := b / (16 * max 1 s.lunBlocks)
def blkAt (s : State) (b : Nat) : Nat := b % (16 * max 1 s.lunBlocks)

/-- Every block of a channel, in order. -/
def chanBlocks (s : State) (c : Nat) : List Nat :=
  ((List.range 4).filter fun e => bit (s.prof 0x07 1) (4 * c + e)).flatMap fun e =>
    (List.range (min 4 (s.prof 0x14 1))).flatMap fun l =>
      (List.range s.lunBlocks).map fun i => ((c * 4 + e) * 4 + l) * s.lunBlocks + i

def blk (s : State) (b : Nat) : BlockSt := tabGet (fun _ => BlockSt.fresh) s.store.blocks b
def setBlk (s : State) (b : Nat) (x : BlockSt) : State :=
  { s with store := { s.store with blocks := tabPut (fun _ => BlockSt.fresh) s.store.blocks b x } }

/-- Blocks that a pSLC area of so many MiB takes. -/
def areaBlocks (s : State) (mib : Nat) : Nat := cdiv (mib * 2 ^ 20) (max 1 (s.prof 0x0E 2) * s.pageBytes)

/-- Blocks of a channel that the profile, the directories and the fixed areas take: the first good ones (R472, R476, R478). -/
def fixedCount (s : State) : Nat := 3 + 2 * s.areaBlocks 64 + 8 + s.areaBlocks 16 + 16

/-- The good blocks outside the fixed areas: the native ones. -/
def nativeBlocks (s : State) : List Nat :=
  ([0, 1].flatMap s.chanBlocks).filter fun b => (s.blk b).bad == 0 && (s.blk b).owner != 4

/-- The blocks that a partition may hold: MODELS, LOG and ARCHIVE (R476, R477). -/
def quota (s : State) (part : Nat) : Nat :=
  let bytes := max 1 (s.prof 0x0C 2) * s.pageBytes
  let models := cdiv (s.prof 0x24 2 * 2 ^ 20) bytes
  let log := cdiv (s.prof 0x26 2 * 2 ^ 20) bytes
  let n := s.nativeBlocks.length
  match part with
  | 1 => models
  | 2 => log
  | _ => n - models - log - cdiv (n * s.prof 0x22 1) 100

def heldBlocks (s : State) (part : Nat) : Nat := (s.store.blocks.filter fun e => e.2.owner == part).length

/-! ### Journal, counter and blocks (R477, R479 to R487) -/

/-- A journal record, with a checkpoint after every 4,096 (R484). -/
def journal (s : State) : State :=
  if s.store.journal + 1 = 4096 then
    { s with store := { s.store with journal := 0, checkpoints := s.store.checkpoints + 1 } }
  else { s with store := { s.store with journal := s.store.journal + 1 } }

/-- The write counter advances past one page (R487). -/
def nextCounter (s : State) : State :=
  let s1 := if s.store.reserved ≤ s.store.counter then
    ({ s with store := { s.store with reserved := s.store.counter + 65536 } } : State).journal else s
  { s1 with store := { s1.store with counter := s1.store.counter + 1 } }

/-- NS_WEAR (R481, R496). -/
def showWear (s : State) : State :=
  let es := s.nativeBlocks.map fun b => (s.blk b).erases
  let hi := es.foldl max 0
  (s.setF nsCommonPage NS_WEAR_max_erase (min hi 65535)).setF nsCommonPage NS_WEAR_min_erase (min (es.foldl min hi) 65535)

/-- The free blocks, and the one taken next: the lowest erase count (R481). -/
def freeBlocks (s : State) : List Nat := s.nativeBlocks.filter fun b => (s.blk b).owner == 0
def nextFree (s : State) : Option Nat := leastBy (fun b => (s.blk b).erases) s.freeBlocks

/-- A block is erased and free again (R475, R482). -/
def eraseBlk (s : State) (b : Nat) : State :=
  let x := s.blk b
  (s.setBlk b { BlockSt.fresh with erases := x.erases + 1, bad := x.bad }).showWear

/-- A native block takes a page of a partition. -/
def programPage (s : State) (b : Nat) : State :=
  let x := s.blk b
  let c := s.blkChan b
  ((s.setBlk b { x with pages := x.pages + 1 }).nextCounter.countBw (32 + c) s.pageBytes).countEvt (nsCh c) 0x11 s.pageBytes

/-- n pages of a partition, into its open block and then into free ones; the blocks used in order. No blocks where none is free. -/
def programPages : Nat → State → Nat → State × Option (List Nat)
  | 0, s, _ => (s, some [])
  | n + 1, s, part =>
    let put := fun (s : State) (b : Nat) =>
      match programPages n (s.programPage b) part with
      | (t, some bs) => (t, some (if bs.head? = some b then bs else b :: bs))
      | (t, none) => (t, none)
    match tabGet (fun _ => none) s.store.openBlk part with
    | some b => if (s.blk b).pages < s.prof 0x0C 2 then put s b else
        match s.nextFree with
        | some f =>
          let s1 := s.setBlk f { s.blk f with owner := part }
          put { s1 with store := { s1.store with openBlk := tabPut (fun _ => none) s1.store.openBlk part (some f) } } f
        | none => (s, none)
    | none =>
      match s.nextFree with
      | some f =>
        let s1 := s.setBlk f { s.blk f with owner := part }
        put { s1 with store := { s1.store with openBlk := tabPut (fun _ => none) s1.store.openBlk part (some f) } } f
      | none => (s, none)

/-- The open block of a partition is closed. -/
def closeBlk (s : State) (part : Nat) : State :=
  { s with store := { s.store with openBlk := tabPut (fun _ => none) s.store.openBlk part none } }

/-- A block of a partition now stands for another: every structure that names it follows. -/
def renameBlk (s : State) (old new : Nat) : State :=
  let f := fun b => if b = old then new else b
  let st := s.store
  { s with store := { st with
    models := st.models.map fun m => (m.1, m.2.map fun (x : ModelImg) => { x with blocks := x.blocks.map f })
    arc := st.arc.map fun x => { x with blocks := x.blocks.map f }
    logBlks := st.logBlks.map f
    openBlk := st.openBlk.map fun e => (e.1, e.2.map f) } }

/-- A block joins the bad-block table as a grown defect (R479). -/
def grownDefect (s : State) (b : Nat) : State :=
  let p := nsCh (s.blkChan b)
  let s1 := (s.setBlk b { BlockSt.fresh with erases := (s.blk b).erases, bad := 2 }).satF nsCommonPage NS_BAD_grown
  ((s1.raise p 2).post p 0x050C).journal

/-- The pages of a block are copied to another free block, which takes its place (R475, R480, R481). -/
def moveBlk (s : State) (b dst : Nat) : State :=
  let x := s.blk b
  let s1 := s.setBlk dst { s.blk dst with owner := x.owner }
  ((List.range x.pages).foldl (fun s _ => s.programPage dst) s1).renameBlk b dst

/-- A program failed in the block in use (R480): its pages and the data go to a free block, and it is a grown defect. -/
def programFailed (s : State) (part : Nat) : State :=
  match tabGet (fun _ => none) s.store.openBlk part, s.nextFree with
  | some b, some f => (s.moveBlk b f).grownDefect b
  | _, _ => s

/-- What the reads of a block met (R474, R475). -/
def nandMet (s : State) (b : Nat) (o : NandOutcome) : State :=
  let p := nsCh (s.blkChan b)
  let mark := fun (s : State) => s.setBlk b { s.blk b with marked := true }
  let s1 := if o.retries = 0 then s else mark (((s.satF p NS_CH_ERR_retries o.retries).raise p 0).postMs p 0x050A)
  let s2 := if s1.getF p NS_CH_ECC_max_bits < o.bits then s1.setF p NS_CH_ECC_max_bits (min o.bits 65535) else s1
  let s3 := if s2.prof 0x28 2 < o.bits then mark (s2.satF p NS_CH_ECC_weak) else s2
  if o.lost then ((s3.satF p NS_CH_ERR_ue).raise p 1).post p 0x050B else s3

/-- n pages of a block are read (R482). -/
def readBlk (s : State) (b n : Nat) : State :=
  let c := s.blkChan b
  ((s.setBlk b { s.blk b with reads := (s.blk b).reads + n }).countBw (32 + c) (n * s.pageBytes)).countEvt (nsCh c) 0x10 (n * s.pageBytes)

/-- The blocks of a list that nothing names any more are erased (R485). -/
def releaseBlks (s : State) (bs : List Nat) : State :=
  bs.eraseDups.foldl (fun s b =>
    let named := s.store.models.any (fun m => match m.2 with | some x => x.blocks.contains b | none => false) ||
      s.store.arc.any (fun x => x.blocks.contains b) || s.store.logBlks.contains b ||
      s.store.openBlk.any fun e => e.2 == some b
    if named then s else s.eraseBlk b) s

/-- LOG pages that have filled since the last program are programmed; the ring gives up its oldest block beyond log_mib (R476). -/
def flushLog (s : State) : State :=
  let per := s.pageBytes / 32
  let due := (s.store.logFirst + s.store.logs.length) / per - s.store.logPages
  let (s1, bs) := programPages due s 2
  match bs with
  | none => s1
  | some bs =>
    let blks := s1.store.logBlks ++ bs.filter fun b => !s1.store.logBlks.contains b
    let excess := blks.length - s1.quota 2
    let s2 := { s1 with store := { s1.store with logBlks := blks.drop excess, logPages := s1.store.logPages + due } }
    s2.releaseBlks (blks.take excess)

/-! ### Mount and format (R471, R478, R479, R486) -/

/-- The store is mounted (R486, R496). -/
def mounted (s : State) : Bool := s.getF nsCommonPage NS_STAT_state == 2

/-- NS_ARC_OLD and NS_ARC_NEW (R496); `next` is the record to be written. -/
def showArc (s : State) (next : Nat) : State :=
  let old := match s.store.arc with | x :: _ => x.recNo | [] => next
  (s.set64 nsCommonPage NS_ARC_OLD_LO_rec_lo NS_ARC_OLD_HI_rec_hi old).set64 nsCommonPage NS_ARC_NEW_LO_rec_lo NS_ARC_NEW_HI_rec_hi next
def arcNext (s : State) : Nat := s.get64 nsCommonPage NS_ARC_NEW_LO_rec_lo NS_ARC_NEW_HI_rec_hi

/-- The boot ROM sets the channels to the profile's interface and mode (R471, R496). -/
def nandSetup (s : State) : State :=
  let ifc := s.prof 0x05 1
  (List.range 2).foldl (fun s c =>
    ((s.setF (nsCh c) NS_CH_STAT_iface ifc).setF (nsCh c) NS_CH_STAT_mts (min 800 (Config.nandRate ifc (s.prof 0x06 1)))).setF (nsCh c)
      NS_CH_STAT_ce (bits (s.prof 0x07 1) (4 * c + 3) (4 * c))) s

/-- STORE_MOUNT: event 9 of bring-up, or after a format (R486, R611). -/
def storeMount (s : State) (ok : Bool) : State :=
  let st := s.getF nsCommonPage NS_STAT_state
  if s.stage ≠ 3 ∧ s.stage ≠ 4 ∨ ¬(st = 0 ∨ st = 1 ∨ st = 3) then s
  else if !ok || s.store.dirSeq.isEmpty then s.setF nsCommonPage NS_STAT_state 4
  else
    let bad := fun k => (s.store.blocks.filter fun e => e.2.bad == k).length
    let s1 := ((s.setF nsCommonPage NS_STAT_state 2).setF nsCommonPage NS_STAT_meta_ok 3).setF nsCommonPage NS_CFG_spare_pct (s.prof 0x22 1)
    let s2 := (s1.setF nsCommonPage NS_CFG_scan_days (s.prof 0x23 1)).setF nsCommonPage NS_CFG_weak_bits (s.prof 0x28 2)
    let s3 := (s2.setF nsCommonPage NS_BAD_grown (bad 2)).setF nsCommonPage NS_BAD_factory (bad 1)
    let opened := s3.store.openBlk.filterMap (·.2)
    let s4 := opened.foldl (fun s b => s.setBlk b { s.blk b with marked := true }) s3
    let next := match s4.store.arc.getLast? with | some x => x.recNo + 1 | none => s4.arcNext
    let s5 := { s4 with store := { s4.store with openBlk := [], counter := s4.store.reserved, passStart := s4.time.elapsed + 1 } }
    (s5.showArc next).showWear.raise nsCommonPage 0

/-- STORE_FORMAT (R478, R479): the blocks with a factory defect are given. -/
def storeFormat (s : State) (factoryBad : List Nat) : State :=
  if s.stage ≠ 3 ∧ s.stage ≠ 4 ∨ s.mounted then s
  else
    let all := [0, 1].flatMap s.chanBlocks
    let bad := all.filter factoryBad.contains
    let good := fun c => (s.chanBlocks c).filter fun b => !factoryBad.contains b
    let fixed := [0, 1].flatMap fun c => (good c).take s.fixedCount
    let mk := fun b => (b, { BlockSt.fresh with
      erases := (s.blk b).erases, bad := b01 (bad.contains b), owner := if fixed.contains b then 4 else 0 })
    let blocks := all.foldl (fun t b => tabPut (fun _ => BlockSt.fresh) t (mk b).1 (mk b).2) []
    let seq := fun c => tabGet (fun _ => 0) s.store.dirSeq c + 1
    let st := { s.store with
      models := [], arc := [], logs := [], logFirst := 0, logBlks := [], logPages := 0, blocks := blocks, openBlk := []
      counter := s.store.reserved, dirSeq := [(0, seq 0), (1, seq 1)], crops := [], cropPos := 0 }
    let s1 := ({ s with store := st } : State).setF nsCommonPage NS_STAT_state 3
    let s2 := (s1.setF nsCommonPage NS_BAD_factory bad.length).setF nsCommonPage NS_BAD_grown 0
    ((s2.setF nsCommonPage NS_ARC_STAT_queued 0).showArc 0).showWear

/-! ### Refresh, wear and scans (R475, R479, R481 to R483) -/

/-- What a lost copy costs (R479, R495): the records and images that the block holds no longer decode. -/
def loseBlk (s : State) (b : Nat) : State :=
  let st := s.store
  { s with store := { st with
    models := st.models.map fun m => (m.1, m.2.map fun (x : ModelImg) => if x.blocks.contains b then { x with ct := [] } else x)
    arc := st.arc.map fun x => if x.blocks.contains b then { x with ct := [] } else x } }

/-- BLOCK_REFRESH (R475, R479). -/
def blockRefresh (s : State) (o : NandOutcome) : State :=
  match (s.store.blocks.find? fun e => e.2.marked && e.2.owner != 0 && e.2.owner != 4), s.nextFree with
  | some (b, _), some f =>
    if !s.mounted then s
    else
      let s1 := s.nandMet b o
      let s2 := (s1.moveBlk b f).satF (nsCh (s1.blkChan b)) NS_CH_REFRESH_blocks
      if o.lost then (s2.loseBlk f).grownDefect b else s2.journal.eraseBlk b
  | _, _ => s

/-- WEAR_LEVEL_COPY (R481). -/
def wearCopy (s : State) : State :=
  let es := s.nativeBlocks
  let hi := (es.map fun b => (s.blk b).erases).foldl max 0
  let cold := leastBy (fun b => (s.blk b).erases) (es.filter fun b => (s.blk b).owner != 0)
  let worn := leastBy (fun b => hi - (s.blk b).erases) s.freeBlocks
  match leastBy (fun b => (s.blk b).erases) es, cold, worn with
  | some least, some b, some f =>
    if s.mounted && decide ((s.blk least).erases + 500 < hi) then ((s.moveBlk b f).journal).eraseBlk b else s
  | _, _, _ => s

/-- A scan of a block (R482). -/
def scanBlk (s : State) (b : Nat) (o : NandOutcome) : State :=
  let s1 := s.nandMet b o
  s1.setBlk b { s1.blk b with reads := 0, scanAt := s1.time.elapsed + 1 }

/-- DISTURB_SCAN (R482). -/
def disturbScan (s : State) (b : Nat) (o : NandOutcome) : State :=
  let x := s.blk b
  let limit := if x.owner = 4 then s.prof 0x1C 4 else s.prof 0x18 4
  if s.mounted && x.bad == 0 && x.owner != 0 && decide (limit ≤ x.reads) then s.scanBlk b o else s

/-- RETENTION_SCAN (R483): event 3 once every programmed block has been scanned in the pass. -/
def retentionScan (s : State) (b : Nat) (o : NandOutcome) : State :=
  let x := s.blk b
  if !s.mounted || x.bad != 0 || x.owner == 0 || s.psState == 5 then s
  else
    let s1 := s.scanBlk b o
    let left := s1.store.blocks.any fun e => e.2.bad == 0 && e.2.owner != 0 && decide (e.2.scanAt ≤ s1.store.passStart)
    if left then s1
    else
      let s2 := { s1 with store := { s1.store with passStart := s1.time.elapsed + 1 } }
      s2.raise nsCommonPage 3

/-! ### The store commands (R493, R494) -/

/-- A store command runs: result 2 until the store is mounted. -/
def storeRun (r : Nat) (run : State → List Byte → State) (s : State) (f : List Byte) : State :=
  if s.mounted then run s.flushLog f else s.finish r 0 [2]

/-- Bytes of the transfer area. -/
def xferRd (s : State) (o n : Nat) : List Byte := s.gddrRd (s.xferBase + o) n

/-- Free bytes of a partition. -/
def partFree (s : State) (part : Nat) : Nat := (s.quota part - s.heldBlocks part) * (s.prof 0x0C 2 * s.pageBytes)

/-- STORE_STATUS: the free space follows as 8 bytes each of MODELS, LOG and ARCHIVE (log 45). -/
def cmdStoreStatus (r : Nat) (s : State) (_ : List Byte) : State :=
  s.finish r 0 (0 :: (leBytes 4 (s.word (nsCommonPage + 0x40)) ++ leBytes 4 (s.word (nsCommonPage + 0x64)) ++
    leBytes 4 (s.word (nsCommonPage + 0x68)) ++ [1, 2, 3].flatMap fun p => leBytes 8 (s.partFree p)))

/-- The image in a slot of MODELS. -/
def modelAt (s : State) (i : Nat) : Option ModelImg := tabGet (fun _ => none) s.store.models i
def setModel (s : State) (i : Nat) (x : Option ModelImg) : State :=
  { s with store := { s.store with models := tabPut (fun _ => none) s.store.models i x } }

/-- MODEL_STORE (R459, R460, R494): envelope, signature, body, and the owner's 60-byte public key after them (log 46). -/
def cmdModelStore (r : Nat) (s : State) (f : List Byte) : State :=
  let b := frameBody f
  let i := le b 0 1
  let n := le b 1 4
  let env := s.xferRd 0 64
  let body := le env 8 4
  let sig := le env 12 4
  let slot := le env 5 1
  if 16 ≤ i ∨ s.xferBytes < n ∨ n ≠ 64 + sig + body + 60 ∨ 3 ≤ slot then s.finish r 0 [3]
  else if (s.owner slot).state = 3 then s.refuseCmd r 0x060C ppMbPage
  else
    let pages := cdiv n s.pageBytes
    let blks := cdiv pages (max 1 (s.prof 0x0C 2))
    let old := match s.modelAt i with | some x => x.blocks | none => []
    if s.quota 1 < s.heldBlocks 1 - old.length + blks then s.finish r 0 [1]
    else
      let ctr := s.store.counter
      match programPages pages (s.closeBlk 1) 1 with
      | (_, none) => s.finish r 0 [1]
      | (s1, some bs) =>
        let clear := s.xferRd 0 (64 + sig) ++ s.xferRd (64 + sig + body) 60
        let (ct, tag) := gcmEnc (s.kModel slot) (leBytes 8 ctr ++ zeros 4) env (s.xferRd (64 + sig) body)
        let s2 := ((s1.setModel i (some ⟨slot, clear, ct, tag, ctr, bs⟩)).journal.closeBlk 1).releaseBlks old
        ({ s2 with store := { s2.store with xferSess := some r } } : State).finish r 0 [0]

/-- MODEL_ERASE (R494): an index that holds no image is done as well. -/
def cmdModelErase (r : Nat) (s : State) (f : List Byte) : State :=
  let i := le (frameBody f) 0 1
  if 16 ≤ i then s.finish r 0 [3]
  else
    let old := match s.modelAt i with | some x => x.blocks | none => []
    (((s.setModel i none).journal).releaseBlks old).finish r 0 [0]

/-- A record as ARCHIVE_READ places it (R493): decrypted with its header, or its header alone with units 0 in one unit (log 47). -/
def arcPlain (s : State) (x : ArcRec) (lost : Bool) : List Byte × Bool :=
  let slot := le x.header 5 1
  let units := le x.header 6 2
  let bad := (patch x.header 6 [0, 0] ++ zeros 4032, false)
  if lost || x.ct.length != le x.header 0x3C 4 then bad
  else
    match gcmDec (s.kArch slot) (sub x.header 0x10 8 ++ zeros 4) x.header x.ct x.tag with
    | some pt => (x.header ++ pt ++ zeros (units * 4096 - 64 - pt.length), true)
    | none => bad

/-- Records of a session's slot from the first asked for, while they fit: bytes, returned, skipped and failed; `lost` is the fate of
the first. -/
def arcTake (s : State) (slot room : Nat) (lost : Bool) : List ArcRec → List Byte × Nat × Nat × Nat
  | [] => ([], 0, 0, 0)
  | x :: xs =>
    if le x.header 5 1 ≠ slot then
      let (bs, n, k, f) := arcTake s slot room lost xs
      (bs, n, k + 1, f)
    else
      let (p, ok) := s.arcPlain x lost
      if room < p.length then ([], 0, 0, 0)
      else
        let (bs, n, k, f) := arcTake s slot (room - p.length) false xs
        (p ++ bs, n + 1, k, f + b01 (!ok))

/-- ARCHIVE_READ (R493): the reply's numbers follow the result as 8, 4, 4 and 4 bytes (log 45). -/
def cmdArchiveRead (nand : NandOutcome) (r : Nat) (s : State) (f : List Byte) : State :=
  let b := frameBody f
  let n := le b 8 4
  if s.xferBytes < n then s.finish r 0 [3]
  else
    let from' := s.store.arc.filter fun x => decide (le b 0 8 ≤ x.recNo)
    let slot := s.getF (ppSess r) PP_SESS_CTRL_slot
    let (bs, got, skip, bad) := s.arcTake slot n nand.lost from'
    let mine := from'.filter fun x => le x.header 5 1 == slot
    let first := match mine.head? with | some x => x.recNo | none => s.arcNext
    let s1 := (mine.take got).foldl (fun s x => match x.blocks.head? with
      | some b => s.readBlk b (cdiv (le x.header 6 2 * 4096) s.pageBytes)
      | none => s) s
    let s2 := match (mine.head?.bind fun x => x.blocks.head?) with
      | some b => if got = 0 then s1 else s1.nandMet b nand
      | none => s1
    let s3 := s2.gdWr s2.xferBase bs
    ({ s3 with store := { s3.store with xferSess := some r } } : State).finish r 0
      (0 :: (leBytes 8 first ++ leBytes 4 got ++ leBytes 4 skip ++ leBytes 4 bad))

/-- LOG_READ (R494): whole entries of 32 bytes at offset 0 of the transfer area; the reply names the first and how many (log 45). -/
def cmdLogRead (r : Nat) (s : State) (f : List Byte) : State :=
  let b := frameBody f
  let n := le b 8 4
  if s.xferBytes < n then s.finish r 0 [3]
  else
    let first := max (le b 0 8) s.store.logFirst
    let es := (s.store.logs.drop (first - s.store.logFirst)).take (n / 32)
    let s1 := s.gdWr s.xferBase es.flatten
    ({ s1 with store := { s1.store with xferSess := some r } } : State).finish r 0 (0 :: (leBytes 8 first ++ leBytes 4 es.length))

/-- The copy that FW_WRITE replaces: BOOT-A or BOOT-B, the one that the running first image was not booted from (log 48). -/
def spareCopy (s : State) : Nat := match s.sec.images[0]? with | some x => if x.copy = 0 then 1 else 0 | none => 0

/-- FW_WRITE (R445, R494). -/
def cmdFwWrite (r : Nat) (s : State) (f : List Byte) : State :=
  let n := le (frameBody f) 0 4
  let (au, s1) := s.authorised r f 4
  if au.isNone then s1.refuseCmd r 0x0604 (ppSess r)
  else if s1.xferBytes < n then s1.finish r 0 [3]
  else
    let s2 := (List.range (cdiv n s1.pageBytes)).foldl (fun s _ => s.nextCounter) s1
    let fw := setAt s2.store.fw s2.spareCopy (s1.xferRd 0 n)
    ({ s2 with store := { s2.store with fw := fw, xferSess := some r } } : State).journal.finish r 0 [0]

/-! ### The archive ring (R489 to R492) -/

/-- ARCHIVE gives up the block that holds its oldest records (R492). -/
def reclaim (s : State) : State :=
  match s.store.arc with
  | [] => s
  | x :: _ =>
    match x.blocks.head? with
    | none => { s with store := { s.store with arc := s.store.arc.drop 1 } }
    | some b =>
      let gone := s.store.arc.filter fun x => x.blocks.contains b
      let s1 := { s with store := { s.store with arc := s.store.arc.filter fun x => !x.blocks.contains b } }
      (s1.showArc s1.arcNext).journal.releaseBlks (gone.flatMap (·.blocks))

/-- Blocks are reclaimed until the record's pages fit (R480, R492); `n` bounds the rounds by the records held. -/
def makeRoom : Nat → State → Nat → State
  | 0, s, _ => s
  | n + 1, s, pages =>
    let per := max 1 (s.prof 0x0C 2)
    let left := match tabGet (fun _ => none) s.store.openBlk 3 with | some b => per - (s.blk b).pages | none => 0
    if pages ≤ left ∨ s.heldBlocks 3 + cdiv (pages - left) per ≤ s.quota 3 then s else makeRoom n s.reclaim pages

/-- ARCHIVE_WRITE: the oldest record of the crop area is encrypted and written (R489 to R492). -/
def archiveWrite (s : State) (o : NandOutcome) : State :=
  match s.store.crops with
  | [] => s
  | c :: rest =>
    if !s.mounted then s
    else
      let base := s.getF nsCommonPage NS_STG_BASE_base * 64
      let area := s.getF nsCommonPage NS_STG_SIZE_crop_mib * 2 ^ 20
      let n := c.units * 4096
      let cut := min n (area - c.off)
      let bs := s.gddrRd (base + c.off) cut ++ s.gddrRd base (n - cut)
      let pages := cdiv n s.pageBytes
      let s1 := makeRoom (s.store.arc.length + 1) s.flushLog pages
      if s1.quota 3 = 0 then s
      else
        let ctr := s1.store.counter
        match programPages pages s1 3 with
        | (_, none) => s
        | (s2, some blks) =>
          let recNo := s2.arcNext
          let hdr := patch (bs.take 64) 8 (leBytes 8 recNo ++ leBytes 8 ctr)
          let (ct, tag) := gcmEnc (s.kArch (le hdr 5 1)) (leBytes 8 ctr ++ zeros 4) hdr (sub bs 64 (le hdr 0x3C 4))
          let new : ArcRec := ⟨recNo, hdr, ct, tag, blks⟩
          let s3 := { s2 with store := { s2.store with crops := rest, arc := s2.store.arc ++ [new] } }
          let s4 := if o.progFail then s3.programFailed 3 else s3
          let s5 := s4.setF nsCommonPage NS_ARC_STAT_queued (s4.getF nsCommonPage NS_ARC_STAT_queued - 1)
          ((s5.showArc (recNo + 1)).journal).raise nsCommonPage 1

end State

/-! ### The commands -/

/-- STORE_STATUS (R494). -/
def execStoreStatus (ring : Fin 8) (s : State) : Host.Outcome State Fault Refusal :=
  s.eng (s.serve ring 0x50 (State.storeRun ring (State.cmdStoreStatus ring)))
/-- MODEL_STORE (R494). -/
def execModelStore (ring : Fin 8) (s : State) : Host.Outcome State Fault Refusal :=
  s.eng (s.serve ring 0x51 (State.storeRun ring (State.cmdModelStore ring)))
/-- MODEL_ERASE (R494). -/
def execModelErase (ring : Fin 8) (s : State) : Host.Outcome State Fault Refusal :=
  s.eng (s.serve ring 0x52 (State.storeRun ring (State.cmdModelErase ring)))
/-- ARCHIVE_READ (R493). -/
def execArchiveRead (ring : Fin 8) (nand : NandOutcome) (s : State) : Host.Outcome State Fault Refusal :=
  s.eng (s.serve ring 0x53 (State.storeRun ring (State.cmdArchiveRead nand ring)))
/-- LOG_READ (R494). -/
def execLogRead (ring : Fin 8) (s : State) : Host.Outcome State Fault Refusal :=
  s.eng (s.serve ring 0x54 (State.storeRun ring (State.cmdLogRead ring)))
/-- FW_WRITE (R494). -/
def execFwWrite (ring : Fin 8) (s : State) : Host.Outcome State Fault Refusal :=
  s.eng (s.serve ring 0x55 (State.storeRun ring (State.cmdFwWrite ring)))
/-- STORE_MOUNT (R486). -/
def execStoreMount (ok : Bool) (s : State) : Host.Outcome State Fault Refusal := s.eng (s.storeMount ok)
/-- STORE_FORMAT (R479). -/
def execStoreFormat (factoryBad : List Nat) (s : State) : Host.Outcome State Fault Refusal := s.eng (s.storeFormat factoryBad)
/-- ARCHIVE_WRITE (R489). -/
def execArchiveWrite (nand : NandOutcome) (s : State) : Host.Outcome State Fault Refusal := s.eng (s.archiveWrite nand)
/-- BLOCK_REFRESH (R475). -/
def execBlockRefresh (nand : NandOutcome) (s : State) : Host.Outcome State Fault Refusal := s.eng (s.blockRefresh nand)
/-- WEAR_LEVEL_COPY (R481). -/
def execWearLevelCopy (s : State) : Host.Outcome State Fault Refusal := s.eng s.wearCopy
/-- DISTURB_SCAN (R482). -/
def execDisturbScan (block : Nat) (nand : NandOutcome) (s : State) : Host.Outcome State Fault Refusal := s.eng (s.disturbScan block nand)
/-- RETENTION_SCAN (R483). -/
def execRetentionScan (block : Nat) (nand : NandOutcome) (s : State) : Host.Outcome State Fault Refusal :=
  s.eng (s.retentionScan block nand)

end Sys2Proof.Machine
end

