-- ==== Sys2Proof/Machine/Links.lean ====
section
/-! DEFINITION. The PCI Express endpoint and the rings (R498 to R519): configuration, indices, doorbells, link loss, resets. -/

namespace Sys2Proof.Machine

namespace State

/-! ### Ring configuration and indices (R506, R508, R516, R531, R532) -/

/-- The host writes an index of its own; `over` says that the occupancy it leaves is out of range (R506). -/
def indexWrite (a : Agent) (page off v : Nat) (beyond : Bool) (s : State) : State :=
  if beyond then s.pgErr a page off 0x01 true else plainWrite a page off v s

/-- The commands of a ring that are taken and not yet answered lose their replies (R511). -/
def dropReplies (s : State) (r : Nat) : State :=
  { s with link := { s.link with held := s.link.held.map fun h => if h.ring = r then { h with dropped := true } else h } }

/-- A write to a base register of a ring page: refused while the ring is on (R516, R532). -/
def ringBaseWrite (a : Agent) (page off v : Nat) (on : Bool) (s : State) : State :=
  if on then s.refuse a page off else plainWrite a page off v s

/-- A write to PX_CR_CFG (R532). -/
def crCfgWrite (a : Agent) (r v : Nat) (s : State) : State :=
  let p := pxCmd r
  if s.flag p PX_CR_CFG_en then
    let s1 := if bits v 7 0 = bits (s.word (p + 0x50)) 7 0 then s else s.refuse a p 0x50
    if bit v 31 then s1 else (s1.setF p PX_CR_CFG_en 0).dropReplies r
  else
    let s1 := plainWrite a p 0x50 v s
    if bit v 31 then
      (((s1.setF p PX_SQ_TAIL_tail 0).setF p PX_SQ_HEAD_head 0).setF p PX_CQ_TAIL_tail 0).setF p PX_CQ_HEAD_head 0
    else s1

/-- A write to PX_SQ_TAIL, the doorbell (R506, R508, R509, R570): frames that fail a test are refused at once. -/
def sqTailWrite (a : Agent) (r v : Nat) (s : State) : State :=
  let p := pxCmd r
  let used := (bits v 15 0 + 2 ^ 16 - s.getF p PX_SQ_HEAD_head) % 2 ^ 16
  let s1 := indexWrite a p 0x54 v (decide (2 ^ s.getF p PX_CR_CFG_sq_log2 < used)) s
  let s2 := if a == .host && (s1.psState == 2 || s1.psState == 3) && s1.flag pwPage PW_WAKE_host then s1.wake (2 ^ 16) else s1
  if s2.halted then s2 else drainRing 256 s2 r

/-- A write to PX_CQ_HEAD (R506, R510): room in the completion ring lets replies and frames go on. -/
def cqHeadWrite (a : Agent) (r v : Nat) (s : State) : State :=
  let p := pxCmd r
  let used := (s.getF p PX_CQ_TAIL_tail + 2 ^ 16 - bits v 15 0) % 2 ^ 16
  let s1 := indexWrite a p 0x60 v (decide (2 ^ s.getF p PX_CR_CFG_cq_log2 < used)) s
  if s1.halted then s1 else drainRing 256 (s1.flushRing r) r

/-- A write to PX_FLT_CFG (R531). -/
def fltCfgWrite (a : Agent) (v : Nat) (s : State) : State :=
  let on := s.flag pxFaultPage PX_FLT_CFG_en
  let s1 := plainWrite a pxFaultPage 0x48 v s
  if bit v 31 && !on then (s1.setF pxFaultPage PX_FLT_IDX_wr 0).setF pxFaultPage PX_FLT_IDX_rd 0 else s1

/-- A write to PX_FLT_IDX (R506). -/
def fltIdxWrite (a : Agent) (v : Nat) (s : State) : State :=
  let used := (s.getF pxFaultPage PX_FLT_IDX_wr + 2 ^ 16 - bits v 15 0) % 2 ^ 16
  indexWrite a pxFaultPage 0x4C v (decide (2 ^ s.getF pxFaultPage PX_FLT_CFG_depth_log2 < used)) s

/-- A write to PX_VR_CFG (R516). -/
def vrCfgWrite (a : Agent) (r v : Nat) (s : State) : State :=
  let p := pxVr r
  if s.flag p PX_VR_CFG_en then
    let depth := s.getF p PX_VR_CFG_depth_log2
    let s1 := if bits v 3 0 = depth then s else s.refuse a p 0x48
    let s2 := s1.setF p PX_VR_CFG_irq_en (bits v 29 29)
    if bit v 31 then s2 else (s2.closeBlock r).setF p PX_VR_CFG_en 0
  else
    let s1 := plainWrite a p 0x48 v s
    if bit v 31 then (s1.setF p PX_VR_WR_blk_wr 0).setF p PX_VR_RD_blk_rd 0 else s1

/-- A write to PX_VR_RD (R506). -/
def vrRdWrite (a : Agent) (r v : Nat) (s : State) : State :=
  let p := pxVr r
  let used := (s.getF p PX_VR_WR_blk_wr + 2 ^ 32 - v % 2 ^ 32) % 2 ^ 32
  indexWrite a p 0x50 v (decide (2 ^ s.getF p PX_VR_CFG_depth_log2 < used)) s

/-- A write to PX_BAR2 (R501): a window that is no multiple of the BAR2 size is a reserved encoding. -/
def bar2WinWrite (a : Agent) (v : Nat) (s : State) : State :=
  if bits v 5 0 * 2 ^ 28 % 2 ^ s.link.bar2Log2 = 0 then plainWrite a pxCommonPage 0x44 v s
  else s.pgErr a pxCommonPage 0x44 0x01 true

/-- VRING_TRAILER (R517): a ring that does not exist changes nothing. -/
def cmdVringTrailer (r : Nat) (s : State) (f : List Byte) : State :=
  let b := frameBody f
  let n := le b 0 2
  let slot := s.getF (ppSess r) PP_SESS_CTRL_slot
  let s1 := if n < 32 then
    (s.setVring n { s.vring n with nextKey := s.kRing slot n }).setF (pxVr n) PX_VR_CFG_trailer (b01 (le b 2 1 != 0)) else s
  s1.finish r 0 []

/-! ### Link loss (R518) -/

/-- The pending message of a vector is sent once its mask and the link let it (R46, R518). -/
def sendPending (s : State) (v : Nat) : State :=
  if bit s.link.pba v && !s.masked v && s.link.up then
    ({ s with link := { s.link with pba := clrBit s.link.pba v } } : State).sendMsi v
  else s

/-- LINK_DOWN. -/
def linkDown (s : State) : State :=
  if !s.link.up then s
  else
    let s1 := { s with link := { s.link with up := false } }
    ((s1.setF pxCommonPage PX_LINK_gen 0).setF pxCommonPage PX_LINK_width 0).raise pxCommonPage 1

/-- LINK_UP: held messages and replies are sent, and frames are read again. -/
def linkUp (s : State) (gen width : Nat) : State :=
  if s.link.up ∨ gen = 0 ∨ ¬[1, 2, 4, 8].contains width then s
  else
    let s1 := { s with link := { s.link with up := true } }
    let s2 := ((s1.setF pxCommonPage PX_LINK_gen gen).setF pxCommonPage PX_LINK_width width).raise pxCommonPage 0
    let s3 := (List.range 74).foldl sendPending s2
    if s3.halted then s3 else (List.range 8).foldl (fun s r => drainRing 256 (s.flushRing r) r) s3

/-! ### Function reset (R519, R609) -/

/-- R519 in stage READY. -/
def functionResetNow (s : State) : State :=
  let s1 := (List.range 8).foldl (fun s i => if s.sessState i = 1 ∨ s.sessState i = 2 then s.closeSession i else s) s
  let s2 := [0, 1, 2, 3].foldl stopJob s1.debugEnd
  let s3 := (List.range 16).foldl (fun s c =>
    if s.flag (dmCh c) DM_CH_STAT_busy then dmCtrlWrite .puppeteer c (setBit (s.word (dmCh c + 0x40)) 30) s else s) s2
  let s4 := (List.range 256).foldl (fun s w =>
    let p := winPage w
    let e := winEnt w
    if s.getF p WN_CTRL_state e = 1 ∧ !s.flag p WN_CTRL_owner e then (s.setF p WN_CTRL_open 0 e).setF p WN_CTRL_state 2 e else s) s3
  s4.endpointReset

/-- A reset of the function arrives, or one that was held is due (R609). -/
def functionReset (s : State) : State :=
  match s.stage with
  | 0 | 3 => { s with link := { s.link with heldReset := true } }
  | 4 => s.functionResetNow
  | _ => s.endpointReset

/-- PERST# takes the link down as well. -/
def execReset (s : State) (perst : Bool) : State := if perst then s.functionReset.linkDown else s.functionReset

/-- POISONED_WRITE (R499): dropped and reported; it is a host request all the same (R570). -/
def poisoned (s : State) : State :=
  let s1 := { s with link := { s.link with aerPoisoned := s.link.aerPoisoned + 1 } }
  if s1.psState = 4 ∨ s1.psState = 5 then s1.wake (2 ^ 16) else s1

end State

/-! ### The commands -/

/-- SQ_DOORBELL (R508). -/
def execSqDoorbell (a : Agent) (ring : Fin 8) (v : Word) (s : State) : Host.Outcome State Fault Refusal :=
  (s.guardedWrite a (pxCmd ring) 0x54 v.toNat (State.sqTailWrite a ring)).done
/-- VRING_TRAILER (R517). -/
def execVringTrailer (ring : Fin 8) (s : State) : Host.Outcome State Fault Refusal :=
  s.eng (s.serve ring 0x70 (State.cmdVringTrailer ring))
/-- VRING_CONFIG (R516): a write of PX_VR_CFG. -/
def execVringConfig (a : Agent) (r : Fin 32) (v : Word) (s : State) : Host.Outcome State Fault Refusal :=
  (s.guardedWrite a (pxVr r) 0x48 v.toNat (State.vrCfgWrite a r)).done
/-- COMMAND_RING_CONFIG (R532): a write of PX_CR_CFG. -/
def execCommandRingConfig (a : Agent) (ring : Fin 8) (v : Word) (s : State) : Host.Outcome State Fault Refusal :=
  (s.guardedWrite a (pxCmd ring) 0x50 v.toNat (State.crCfgWrite a ring)).done
/-- FAULT_RING_CONFIG (R531): a write of PX_FLT_CFG. -/
def execFaultRingConfig (a : Agent) (v : Word) (s : State) : Host.Outcome State Fault Refusal :=
  (s.guardedWrite a pxFaultPage 0x48 v.toNat (State.fltCfgWrite a)).done
/-- LINK_DOWN (R518). -/
def execLinkDown (s : State) : Host.Outcome State Fault Refusal := s.linkDown.done
/-- LINK_UP (R518). -/
def execLinkUp (gen : Fin 6) (width : BitVec 8) (s : State) : Host.Outcome State Fault Refusal := (s.linkUp gen width.toNat).done
/-- FUNCTION_RESET (R519). -/
def execFunctionReset (perst : Bool) (s : State) : Host.Outcome State Fault Refusal := (s.execReset perst).done
/-- POISONED_WRITE (R499). -/
def execPoisonedWrite (s : State) : Host.Outcome State Fault Refusal := s.poisoned.done

end Sys2Proof.Machine
end

