-- ==== Sys2Proof/Machine/Boot.lean ====
section
/-! DEFINITION. Device reset (R625), the boot ROM's choice of images (R437 to R442), bring-up to READY (R607 to R611) and the SVN
floors (R443). -/

namespace Sys2Proof.Machine

/-- A firmware image found in a copy (R438): copy, type, version, epoch, SVN, its manifest as (type, min, max), its header, and
whether it is valid. -/
structure FwImage where
  copy : Nat
  type : Nat
  ver : Nat
  epoch : Nat
  svn : Nat
  manifest : List (Nat × Nat × Nat)
  header : List Byte
  valid : Bool
  deriving DecidableEq, Repr

/-- The silicon's stepping code: PG_VER.stepping (R437, R440). -/
def stepping : Nat := 0xB1

/-- The reserved fields of an image header are zero, and so are unused manifest entries (R438). -/
def fwReservedOk (h : List Byte) : Bool :=
  let n := le h 7 1
  decide (le h 6 1 ≤ 1) && le h 0xE 2 == 0 && le h 0x1C 4 == 0 && (List.range 8).all fun j =>
    let e := sub h (0x40 + 16 * j) 16
    if j < n then le e 1 3 == 0 && le e 12 4 == 0 else e == zeros 16

/-- The vendor's signature verifies with the parameters of R439: two levels of LMS H20 with LMOTS W8. -/
def vendorVerify (key sig msg : List Byte) : Bool :=
  beNat (sub key 0 4) == 2 && beNat (sub key 4 4) == 8 && beNat (sub key 8 4) == 4 && beNat (sub sig 1776 4) == 8 &&
    beNat (sub sig 1780 4) == 4 && hssVerify key sig msg

/-- The payload of the image at a place of a copy starts here: at the next multiple of 64 from the image's start (R438). -/
def fwPayloadAt (h : List Byte) : Nat := (0xC0 + le h 0x18 4 + 63) / 64 * 64

/-- The image of a type at a place of a copy (R438, R439). -/
def readImage (vroot : List Byte) (floor copy type at' : Nat) (bs : List Byte) : FwImage :=
  let h := sub bs at' 192
  let key := sub bs 0 60
  let sigLen := le h 0x18 4
  let len := le h 0x14 4
  let pay := at' + fwPayloadAt h
  let fits := decide (pay + len ≤ bs.length)
  { copy := copy, type := type, ver := le h 8 4, epoch := le h 0xC 2, svn := le h 0x10 4, header := h
    manifest := (List.range (min 8 (le h 7 1))).map fun j => (le h (0x40 + 16 * j) 1, le h (0x44 + 16 * j) 4, le h (0x48 + 16 * j) 4)
    valid := fits && sha256 key == vroot && le h 5 1 == type && le h 4 1 == 1 && fwReservedOk h && decide (floor ≤ le h 0x10 4) &&
      vendorVerify key (sub bs (at' + 0xC0) sigLen) h && sha256 (sub bs pay len) == sub h 0x20 32 }

/-- The four images of a copy, one of each type, from a place on (R437, R438). -/
def readImages (vroot : List Byte) (floors : List Nat) (copy : Nat) (bs : List Byte) : List Nat → Nat → List FwImage
  | [], _ => []
  | t :: ts, at' =>
    let h := sub bs at' 192
    readImage vroot (floors.getD (t - 1) 0) copy t at' bs :: readImages vroot floors copy bs ts (at' + fwPayloadAt h + le h 0x14 4)

/-- X accepts a partner of a type and version (R440). -/
def FwImage.accepts (x : FwImage) (type ver : Nat) : Bool :=
  x.manifest.any fun e => e.1 == type && decide (e.2.1 ≤ ver ∧ ver ≤ e.2.2)

/-- The pairs of a set in order, as (i, j): j is 0 for the hardware, else above i. -/
def setPairs : List (Nat × Nat) := [1, 2, 3, 4].flatMap fun i => ([0, 1, 2, 3, 4].filter fun j => j == 0 || decide (i < j)).map fun j => (i, j)

/-- A pair of a set is tested (R440). -/
def pairTested (x : List FwImage) (p : Nat × Nat) : Bool :=
  match x[p.1 - 1]? with
  | none => false
  | some a =>
    if p.2 = 0 then a.accepts 0 stepping
    else match x[p.2 - 1]? with
      | some b => a.accepts b.type b.ver && b.accepts a.type a.ver
      | none => false

/-- The first pair of a set that is not tested; none where the set is tested (R440, R442). -/
def untestedPair (x : List FwImage) : Option (Nat × Nat) := setPairs.find? fun p => !pairTested x p

/-- Every image carries the same epoch (R440). -/
def consistentSet (x : List FwImage) : Bool := x.all fun a => a.epoch == ((x.map (·.epoch)).headD 0)

/-- Set x is newer than set y (R441). -/
def newerSet : List FwImage → List FwImage → Bool
  | a :: x, b :: y => if a.ver = b.ver then newerSet x y else decide (b.ver < a.ver)
  | _, _ => false

/-- The newest of some sets; of equal ones the first (R441). -/
def newestSet (xs : List (List FwImage)) : Option (List FwImage) :=
  xs.foldl (fun best x => match best with
    | none => some x
    | some b => if newerSet x b then some x else best) none

/-- Every set of one valid image of each type (R441). -/
def imageSets (all : List FwImage) : List Nat → List (List FwImage)
  | [] => [[]]
  | t :: ts => (all.filter fun a => a.type == t && a.valid).flatMap fun a => (imageSets all ts).map (a :: ·)

namespace State

/-! ### Device reset (R434, R456, R625) -/

/-- The machine right after a device reset: what NAND, OTP, KEYSTATE, GDDR6 and the host hold stays. -/
def afterReset (s : State) : State :=
  let (salt, s1) := s.drawBytes 32
  let next := match s.sec.leaf with | some (_, first) => first + 1024 | none => 0
  let st := s.store
  let blocks : Tab BlockSt := st.blocks.map fun e => (e.1, { e.2 with scanAt := 0 })
  let s2 := { State.reset with
    pending := s.pending
    host := s.host
    gddr := s.gddr
    power := { State.reset.power with pwrOk := s.power.pwrOk }
    sec := { SecSt.factory with
      vroot := s.sec.vroot, dus := s.sec.dus, idPub := s.sec.idPub, slots := s.sec.slots, svn := s.sec.svn
      policy := s.sec.policy, policyCtr := s.sec.policyCtr, eccOff := s.sec.eccOff, leaf := s.sec.leaf
      leafNext := next, leafEnd := next, bootSalt := salt }
    store := { st with blocks := blocks, xferSess := none, passStart := 0, crops := [], cropPos := 0 }
    freeCtr := s1.freeCtr }
  (s2.setF scPage SC_LEAF_next next).setF scPage SC_LEAF_RES_end next

/-- DEVICE_RESET: PORST_N is low for `lowNs` nanoseconds (R625). -/
def deviceReset (s : State) (lowNs : Nat) : State :=
  if lowNs < 1000 then s
  else if 10000 ≤ lowNs ∨ Config.shortResets lowNs then s.afterReset
  else s

/-! ### The boot ROM (R438 to R443) -/

/-- The images of the three copies (R437, R442). -/
def bootImages (s : State) : List FwImage :=
  (s.store.fw.zipIdx 0).flatMap fun c => readImages s.sec.vroot s.sec.svn c.2 c.1 [1, 2, 3, 4] 60

/-- The ROM ends in MISMATCH or HALT (R442, R607, R609). -/
def bootStops (s : State) (state stage reason : Nat) (pair : Nat × Nat) : State :=
  let s1 := ((s.setF scPage SC_BOOT_STAT_state state).setF scPage SC_BOOT_STAT_reason reason).setF scPage SC_BOOT_STAT_pair_i pair.1
  let s2 := (s1.setF scPage SC_BOOT_STAT_pair_j pair.2).enterStage stage
  if s2.link.heldReset then s2.endpointReset else s2

/-- A code of the boot ROM is posted by the mailbox page (R443, R468). -/
def bootPost (s : State) (code : Nat) : State := (s.raise ppMbPage 3).post ppMbPage code

/-- RUN (R442, R443, R471, R584, R587, R611): the set is loaded and the Puppeteer starts. -/
def bootRun (s : State) (x : List FwImage) (untested : Bool) (invalid : Nat) : State :=
  let recov := x.any fun a => a.copy == 2
  let s1 := ((s.setF scPage SC_BOOT_STAT_state 3).setF scPage SC_BOOT_STAT_untested (b01 untested)).setF scPage SC_BOOT_STAT_recovery
    (b01 recov)
  let s2 := (x.zipIdx 0).foldl (fun s p => s.setF scPage SC_BOOT_VERt_img_ver p.1.ver p.2) s1
  let s3 := s2.setF scPage SC_BOOT_SRC_copy ((x.zipIdx 0).foldl (fun w p => w + p.1.copy * 4 ^ p.2) 0)
  let imgs : List RunImage := x.map fun a => ⟨a.ver, a.epoch, a.svn, a.copy, sha256 a.header, le a.header 6 1 % 2 == 1⟩
  let s4 := { s3 with sec := { s3.sec with images := imgs, fwAt := some s3.time.elapsed } }
  let s5 := (s4.nandSetup.setF ckPage CK_LOCK_locked 0xFFFFFFFF).enterStage 3
  let s6 := (List.range invalid).foldl (fun s _ => s.bootPost 0x0601) s5
  let s7 := if untested then s6.bootPost 0x0603 else s6
  s7.waxLoad.waxStart

/-- BOOT_IMAGES_CHECKED (R441, R442, R447). -/
def bootChecked (s : State) : State :=
  if s.stage ≠ 0 then s
  else
    let all := s.bootImages
    let invalid := (all.filter fun a => !a.valid).length
    let s1 := (s.setF scPage SC_BOOT_STAT_invalid (min invalid 255)).setF scPage SC_POLICY_policy s.sec.policy
    if [1, 2, 3, 4].any fun t => all.all fun a => a.type != t || !a.valid then s1.bootStops 5 2 1 (0, 0)
    else
      let sets := (imageSets all [1, 2, 3, 4]).filter consistentSet
      match newestSet (sets.filter fun x => (untestedPair x).isNone), newestSet sets with
      | some x, _ => s1.bootRun x false invalid
      | none, some x =>
        if bit s.sec.policy 0 then s1.bootRun x true invalid
        else s1.bootStops 4 1 2 ((untestedPair x).getD (0, 0))
      | none, none => s1.bootStops 4 1 3 (0, 0)

/-! ### Bring-up (R488, R608, R611, R640) -/

/-- The Puppeteer locks a page (R40). -/
def lockPage (s : State) (page : Nat) : State :=
  let s1 := (s.setF page PG_LOCK_lock 1).setF page PG_LOCK_owner 2
  if s1.woDone.contains (page + 0x28) then s1 else { s1 with woDone := (page + 0x28) :: s1.woDone }

/-- The Puppeteer unlocks a page that it locked (R199); its lock is not re-armed (R41; log 51). -/
def unlockPage (s : State) (page : Nat) : State := (s.setF page PG_LOCK_lock 0).setF page PG_LOCK_owner 0

/-- A sealed region is set up and its key slot loaded (R395, R435). -/
def sealRegion (s : State) (n key mib size : Nat) : State :=
  let s1 := (s.loadKey key).setF mxCommonPage MX_SEALn_BASE_base_mib mib n
  let s2 := (s1.setF mxCommonPage MX_SEALn_BASE_host_clear 0 n).setF mxCommonPage MX_SEALn_BASE_en 1 n
  (s2.setF mxCommonPage MX_SEALn_key key n).setF mxCommonPage MX_SEALn_size_mib size n

/-- The pages whose enable the Puppeteer sets before READY (R640). -/
def managedPages : List Nat :=
  [feCommonPage, clCommonPage, pcPage, gdPage, dmCommonPage, wnPage, mxCommonPage, tzCommonPage] ++ (List.range 8).map fePort ++
    (List.range 16).map dmCh ++ (List.range 4).map wnTab ++ (List.range 8).map mxCh ++ (List.range 3).map tzPort

/-- The steps of events 5 to 10 are over (R611): a store that failed to mount does not hold READY back. -/
def bringUpDone (s : State) : Bool :=
  let st := s.getF nsCommonPage NS_STAT_state
  s.getF mxCommonPage MX_STAT_trained == 255 && (!s.eccOn || s.flag mxCommonPage MX_STAT_init_done) && (st == 2 || st == 4) &&
    !s.flag wxPage WX_STAT_running

/-- BRING_UP_READY: event 11 of R611, with a reset that was held (R609). -/
def bringUpReady (s : State) : State :=
  if s.stage ≠ 3 || !s.bringUpDone then s
  else
    let mib := Config.stagingMib % (s.gddrEnd / 2 ^ 20 - 47)
    let s1 := (s.sealRegion (Config.stagingSeal % 8) (Config.stagingKey % 16) mib 48).setF nsCommonPage NS_STG_BASE_base (mib * 2 ^ 14)
    let s2 := managedPages.foldl (fun s p => s.setF p PG_CTRL_enable 1) s1
    let s3 := ({ (s2.lockPage scPage).lockPage mxCommonPage with readyReached := true } : State).enterStage 4
    if s3.link.heldReset then s3.functionResetNow else s3

/-- SVN_FLOOR_RAISE (R443). -/
def svnRaise (s : State) : State :=
  match s.sec.fwAt with
  | none => s
  | some t =>
    if (s.stage = 3 ∨ s.stage = 4) ∧ t + 3600 * second ≤ s.time.elapsed then
      let svn := (s.sec.svn.zipIdx 0).map fun p => match s.sec.images[p.2]? with
        | some i => if i.raiseFloor then max p.1 i.svn else p.1
        | none => p.1
      { s with sec := { s.sec with svn := svn } }
    else s

end State

/-! ### The commands -/

/-- DEVICE_RESET (R625). -/
def execDeviceReset (lowNs : Nat) (s : State) : Host.Outcome State Fault Refusal := (s.deviceReset lowNs).done
/-- BOOT_IMAGES_CHECKED (R442). -/
def execBootImagesChecked (s : State) : Host.Outcome State Fault Refusal := s.bootChecked.done
/-- BRING_UP_READY (R611). -/
def execBringUpReady (s : State) : Host.Outcome State Fault Refusal := s.eng s.bringUpReady
/-- SVN_FLOOR_RAISE (R443). -/
def execSvnFloorRaise (s : State) : Host.Outcome State Fault Refusal := s.eng s.svnRaise

end Sys2Proof.Machine
end

