-- ==== Sys2Proof/Machine/Load.lean ====
section
/-! DEFINITION. What a job image holds beside its rink programs, and the tests of a JOB_LOAD on it (R288 to R294, R313, R329, R361,
R363, R421, R422, R614): the plan block, the multicast and replica tables, the adaptation descriptor, the table checks in their order,
the tile-shape checks (R223) and the acceptance of a plan. -/

namespace Sys2Proof.Machine

/-! ### The plan block -/

/-- Entry i of a plan's rinks, at a byte address (R291). -/
def parsePlanRink (b : List Byte) : PlanRink :=
  { cells := le b 0 2, stages := le b 2 1, groups := le b 3 1, interval := le b 4 4, busy := le b 8 4, sumBase := le b 0xC 4 % 2 ^ 23
    sumStride := le b 0x10 4 % 2 ^ 23, sumNbuf := bits (le b 0x10 4) 25 24 + 1, partner := le b 0x14 1 }
def planRinkClean (b : List Byte) : Bool :=
  decide (le b 0xC 4 < 2 ^ 23) && bits (le b 0x10 4) 23 23 == 0 && decide (le b 0x10 4 < 2 ^ 26) && allZero b 0x15 11

/-- A cell entry (R291). -/
def parsePlanCell (b : List Byte) : PlanCell :=
  { piste := le b 0 1, rink := le b 1 1, pos := le b 2 2, x0 := le b 4 2, width := le b 6 2, gateOff := le b 8 4, left := le b 0xC 1
    right := le b 0xD 1, replica := bit (le b 0xE 1) 0 }
def planCellClean (b : List Byte) : Bool :=
  decide (le b 2 2 < 2 ^ 13) && !bit (le b 0xC 1) 6 && !bit (le b 0xD 1) 6 && decide (le b 0xE 1 < 2) && allZero b 0xF 1

/-- The replica table of a job, where it has one (R421): its address. -/
def replicaEntry (mem : Reader) (rep p : Nat) : List Byte := mem (rep + 0x10 + 48 * p) 48

/-- The plan at an address, number p of its job; `rep` is the address of the replica table, 0 for none (R291, R421). -/
def parsePlan (mem : Reader) (at' rep p : Nat) : Plan :=
  let b := mem at' 64
  let k := le b 0 1
  let e := if rep = 0 then zeros 48 else replicaEntry mem rep p
  { k := k, div := le b 1 1, imageBytes := le b 4 4, imageBase := le b 8 4, imageStride := le b 0xC 4, gateMax := le b 0x10 4
    rinks := (List.range (4 * k)).map fun i => parsePlanRink (mem (at' + 64 + 32 * i) 32)
    cells := (List.range (le b 2 2)).map fun i => parsePlanCell (mem (at' + 64 + 128 * k + 16 * i) 16)
    depth := (List.range 32).map fun i => le e i 1
    spotDepth := le e 0x20 1, spotN := le e 0x22 2 }

/-- The reserved fields of a plan are zero. -/
def planClean (mem : Reader) (at' : Nat) : Bool :=
  let b := mem at' 64
  let k := le b 0 1
  allZero b 0x14 44 && ((List.range (4 * k)).all fun i => planRinkClean (mem (at' + 64 + 32 * i) 32)) &&
    (List.range (le b 2 2)).all fun i => planCellClean (mem (at' + 64 + 128 * k + 16 * i) 16)

/-- Entries of the piste table, marker rules and crop rules (R290, R313). -/
def parsePiste (b : List Byte) : Piste := { stream := le b 0 1, ring := le b 1 1, shift := le b 2 1, sx := le b 3 1, sy := le b 4 1 }
def parseMarker (b : List Byte) : MarkerRule :=
  { marker := le b 0 1, cls := le b 1 1, mode := le b 2 1, minPx := le b 4 4, minScore := le b 8 4, offset := leS b 0xC 4 }
def parseCrop (b : List Byte) : CropRule := { cls := le b 0 1, w := le b 2 2, h := le b 4 2, minScore := le b 8 4, minPx := le b 0xC 4 }

/-- The plan block at an address (R288). -/
def parseBlock (mem : Reader) (at' rep : Nat) : PlanBlock :=
  let b := mem at' 64
  { domains := le b 2 1, rerunEn := bit (le b 3 1) 0, rerunMax := le b 7 1, skew := le b 8 4, period := le b 0xC 4, cropMax := le b 0x10 2
    plans := (List.range (min 3 (le b 1 1))).map fun p => parsePlan mem (at' + le b (0x14 + 4 * p) 4) rep p
    pistes := (List.range (min 32 (le b 4 1))).map fun i => parsePiste (mem (at' + le b 0x20 4 + 8 * i) 8)
    markers := (List.range (min 16 (le b 5 1))).map fun i => parseMarker (mem (at' + le b 0x24 4 + 16 * i) 16)
    crops := (List.range (min 8 (le b 6 1))).map fun i => parseCrop (mem (at' + le b 0x28 4 + 16 * i) 16) }

/-- A class field of a rule (R313). -/
def ruleClassOk (c : Nat) : Bool := decide (c ≤ 14) || c == 0xFE

/-- The fields of the plan block outside its plans lie within their ranges (R288 to R290, R313); H is the stripe height. -/
def blockOk (mem : Reader) (at' h : Nat) (x : PlanBlock) : Bool :=
  let b := mem at' 64
  let d := x.domains
  let ks := (List.range (min 3 d)).map fun i => d - i
  (le b 0 1 == 1 && decide (1 ≤ d ∧ d ≤ 4) && decide (le b 3 1 < 2) && decide (1 ≤ le b 4 1 ∧ le b 4 1 ≤ 32)) &&
  (decide (le b 5 1 ≤ 16) && decide (le b 6 1 ≤ 8) && decide (x.rerunMax ≤ 4) && decide (x.skew ≤ 50000) && decide (x.cropMax ≤ 1024)) &&
  (allZero b 0x12 2 && allZero b 0x2C 20 && le b 1 1 == ks.length && x.plans.map (·.k) == ks) &&
  ((List.range x.pistes.length).all fun i => allZero (mem (at' + le b 0x20 4 + 8 * i) 8) 5 3) &&
  (x.pistes.all fun p => decide (p.stream < 32) && decide (1 ≤ p.sx ∧ p.sx ≤ 64) && decide (1 ≤ p.sy ∧ p.sy ≤ 64)) &&
  ((List.range x.markers.length).all fun i => allZero (mem (at' + le b 0x24 4 + 16 * i) 16) 3 1) &&
  (x.markers.all fun r => decide (r.marker < 16) && ruleClassOk r.cls && decide (r.mode ≤ 1)) &&
  ((List.range x.crops.length).all fun i =>
    let r := mem (at' + le b 0x28 4 + 16 * i) 16
    allZero r 1 1 && allZero r 6 2) &&
  x.crops.all fun r => ruleClassOk r.cls && decide (64 ≤ r.w ∧ r.w ≤ 1024) && r.w % 64 == 0 && decide (16 ≤ r.h ∧ r.h ≤ h)

/-! ### Rink images -/

/-- A stage program of a rink image: group, core, words, and its operators, each with P2 where it is a FUSED_PAIR. -/
structure Stage where
  group : Nat
  core : Nat
  words : List Nat
  ops : List (Oper × Option Oper)
  deriving DecidableEq, Repr

/-- A rink image as it will lie in its scratchpad: plan, logical rink, its bytes, the program and its stages (R260, R261, R613). -/
structure Net where
  plan : Nat
  rink : Nat
  rd : Reader
  prog : RinkProg
  groups : List Group
  stages : List Stage

/-- The scratchpad that an image fills from address 0: zero beyond it. -/
def imageReader (mem : Reader) (base bytes : Nat) : Reader :=
  fun a n => (List.range n).map fun i => if a + i < bytes then (mem (base + a + i) 1).getD 0 0 else 0

/-- The image of a logical rink. -/
def readNet (mem : Reader) (plan rink base bytes progBase : Nat) : Net :=
  let rd := imageReader mem base bytes
  let prog := parseProg rd (64 * progBase)
  let groups := (List.range (min prog.nGroups 16)).map (parseGroup rd prog.groups)
  let stages := (groups.zipIdx 0).flatMap fun g => ((g.1.stages.zipIdx 0).filter fun r => g.1.has r.2).map fun r =>
    let ws := stageWords rd r.1
    let ops : List (Oper × Option Oper) := (opsOf ws).map fun a =>
      let o := parseOper rd a
      (o, if o.isPair then some (parseOper rd o.d.aux) else none)
    { group := g.2, core := r.2, words := ws, ops := ops }
  ⟨plan, rink, rd, prog, groups, stages⟩

/-- Every operator of an image, P2s included. -/
def Net.opers (n : Net) : List Oper := n.stages.flatMap fun t => t.ops.flatMap fun p => p.1 :: p.2.toList

/-- The bank of an operator (R173). -/
def Net.bank (n : Net) (o : Oper) : QBank := readBank n.rd o.q

/-! ### Multicast, adaptation and replica tables -/

/-- A multicast entry (R329): key and receivers. -/
def parseMcast (b : List Byte) : Nat × Nat := (le b 0 4 % 2 ^ 28, le b 0x10 16)
def mcastOk (b : List Byte) : Bool := decide (le b 0 4 < 2 ^ 28) && allZero b 4 12

/-- Layer l of an adaptation descriptor (R363). -/
def parseLayer (b : List Byte) : AdaptLayer :=
  { key := le b 0 4 % 2 ^ 28, nIn := le b 4 2, nOut := le b 6 2, master := le b 8 4 % 2 ^ 28, init := le b 0xC 4 % 2 ^ 28
    state := le b 0x10 4 % 2 ^ 28 }
def layerOk (b : List Byte) : Bool :=
  decide (le b 0 4 < 2 ^ 28) && decide (1 ≤ le b 4 2 ∧ le b 4 2 ≤ 4096) && decide (1 ≤ le b 6 2 ∧ le b 6 2 ≤ 4096) &&
    decide (le b 8 4 < 2 ^ 28) && decide (le b 0xC 4 < 2 ^ 28) && decide (le b 0x10 4 < 2 ^ 28) && allZero b 0x14 4

/-- The operators of an image set whose weights are a layer's (R361). -/
def adaptedOps (nets : List Net) (l : AdaptLayer) : List (Net × Oper) :=
  nets.flatMap fun n => (n.opers.filter fun o => o.hasWeights && o.l.wtExt && o.d.wtBase == l.key).map fun o => (n, o)

/-- The adaptation descriptor at an address, with what the adapted operators give (R363, R374). -/
def parseAdapt (mem : Reader) (at' : Nat) (nets : List Net) : AdaptDesc :=
  let b := mem at' 128
  let layers := (List.range (min 2 (le b 1 1))).map fun l => parseLayer (sub b (0x20 + 24 * l) 24)
  let ops := layers.map fun l => (adaptedOps nets l).head?
  { batch := le b 2 1, capture := bit (le b 3 1) 0, actFn := le b 4 1, swapSteps := le b 5 1, capMax := le b 6 2, lr := le b 8 4
    beta1 := le b 0xC 4, beta2 := le b 0x10 4, eps := le b 0x14 4, wd := le b 0x18 4, rateMax := le b 0x1C 2
    classMask := le b 0x1E 2 % 2 ^ 15, layers := layers, capBase := le b 0x50 4 % 2 ^ 28, capLog2 := le b 0x54 4 % 32
    feat := le b 0x58 4 % 2 ^ 23, featStride := le b 0x5C 4 % 2 ^ 23, featNbuf := bits (le b 0x5C 4) 25 24 + 1
    featPr := le b 0x60 4 % 2 ^ 23, featPc := le b 0x64 4 % 2 ^ 23, featRs := le b 0x68 4 % 2 ^ 23, bankStride := le b 0x6C 4 % 2 ^ 28
    wtFmt := ops.map fun o => match o with | some p => p.2.q.wt | none => 0
    scales := ops.map fun o => match o with | some p => (p.1.bank p.2).scales | none => []
    actFmt := match ops with | some p :: _ => p.2.q.act | _ => 0
    actZ := match ops with | some p :: _ => p.2.q.zin | _ => 0 }

/-- An FP32 word that is positive and finite; zero or greater and finite; zero to below 1. -/
def posFloat (w : Nat) : Bool := decide (0 < w ∧ w < 0x7F800000)
def nonNegFloat (w : Nat) : Bool := decide (w < 0x7F800000) || w == 0x80000000
def belowOne (w : Nat) : Bool := decide (w < 0x3F800000) || w == 0x80000000

/-- The job passes R361 with the descriptor at an address of the image. -/
def adaptOk (mem : Reader) (at' : Nat) (x : PlanBlock) (nets : List Net) : Bool :=
  let b := mem at' 128
  let n := le b 1 1
  let d := parseAdapt mem at' nets
  let used := (List.range n).all fun l => layerOk (sub b (0x20 + 24 * l) 24)
  (at' % 64 == 0 && le b 0 1 == 1 && (n == 1 || n == 2) && [8, 16, 24, 32].contains d.batch && decide (le b 3 1 < 2)) &&
  ((if n = 1 then d.actFn == 0 && allZero b 0x38 24 else [4, 5, 6].contains d.actFn) && decide (1 ≤ d.swapSteps)) &&
  (decide (d.capMax ≤ 256) && posFloat d.lr && belowOne d.beta1 && belowOne d.beta2 && posFloat d.eps && nonNegFloat d.wd) &&
  (decide (1 ≤ d.rateMax ∧ d.rateMax ≤ 2000) && decide (le b 0x1E 2 < 2 ^ 15) && used && decide (le b 0x50 4 < 2 ^ 28)) &&
  (decide (8 ≤ le b 0x54 4 ∧ le b 0x54 4 ≤ 20) && decide (le b 0x58 4 < 2 ^ 23) && bits (le b 0x5C 4) 23 23 == 0 &&
    decide (le b 0x5C 4 < 2 ^ 26)) &&
  (decide (le b 0x60 4 < 2 ^ 23) && decide (le b 0x64 4 < 2 ^ 23) && decide (le b 0x68 4 < 2 ^ 23) && decide (le b 0x6C 4 < 2 ^ 28) &&
    allZero b 0x70 16) &&
  (x.plans.all fun p => p.cells.all fun c => c.rink != 4 * (p.k - 1) + 2 && c.rink != 4 * (p.k - 1) + 3) &&
  decide ((d.layers.map fun l => l.nIn * l.nOut).foldl (· + ·) 0 ≤ 4194304) &&
  (d.layers.all fun l =>
    let ops := adaptedOps nets l
    !ops.isEmpty && ops.all fun p => (p.2.q.wt == 2 || p.2.q.wt == 0) && p.2.q.priv == 0) &&
  [2, 3, 9, 10].contains d.actFmt &&
  match d.layers.getLast? with | some l => decide (l.nOut ≤ 256) | none => false

/-- The copies of a cell in its plan (R420). -/
def copiesOf (q : Plan) (c : PlanCell) : List PlanCell :=
  q.cells.filter fun d => d.replica && d.piste == c.piste && d.x0 == c.x0 && d.width == c.width

/-- A side of a copy names the rink of the neighbouring cell's copy, with the primary's present bit; of a neighbour on another node the
plan has no entry, and the byte is the primary's (R422). -/
def copySideOk (q : Plan) (node : Nat) (c : PlanCell) (left : Bool) (side copySide : Nat) : Bool :=
  if !bit side 7 then !bit copySide 7
  else if bits side 5 4 != node then copySide == side
  else
    match q.cells.find? (fun d => !d.replica && d.piste == c.piste &&
      if left then d.x0 + d.width == c.x0 else d.x0 == c.x0 + c.width) with
    | some d => (copiesOf q d).any fun e => copySide == side / 16 * 16 + e.rink % 16
    | none => false

/-- The replica table passes R422 for plan p, of which `nets` are the images; with no table the plan has no copies (R420). -/
def replicaOk (mem : Reader) (rep node imgBytes : Nat) (x : PlanBlock) (p : Nat) (q : Plan) (nets : List Net) : Bool :=
  if rep = 0 then q.cells.all fun c => !c.replica
  else
    let e := replicaEntry mem rep p
    let net := fun l => nets.find? fun (n : Net) => n.plan == p && n.rink == l
    let count := fun (n : Net) => n.stages.foldl (fun m t => max m (stageNo t.group t.core + 1)) 0
    allZero e 0x21 1 && allZero e 0x24 12 && decide (q.spotDepth ≤ 128) &&
    (q.spotDepth == 0 || (decide (2 ≤ q.spotN ∧ q.spotN ≤ 4096) && decide (1 ≤ x.rerunMax))) &&
    (List.range 32).all fun i =>
      let d := q.depth.getD i 0
      let prim := q.cells.filter fun c => c.piste == i && !c.replica
      let cop := q.cells.filter fun c => c.piste == i && c.replica
      (decide (d ≤ 128) || d == 255) && ((d != 0) == !cop.isEmpty) && (d == 0 || decide (cop.length = prim.length)) &&
      (d == 0 || prim.all fun c =>
        match copiesOf q c, net c.rink, net (c.rink ^^^ 1) with
        | [t], some n, some m =>
          let stages := n.stages ++ m.stages
          t.rink == c.rink ^^^ 1 && copySideOk q node c true c.left t.left && copySideOk q node c false c.right t.right &&
          (d == 255 || (decide (d ≤ count n) && decide (d ≤ count m))) &&
          n.rd 0 imgBytes == m.rd 0 imgBytes &&
          stages.all fun s => !(d == 255 || decide (stageNo s.group s.core < d)) || s.ops.all fun p =>
            p.1.q.accInt || !(p.1.hasWeights && p.1.l.arrOrder)
        | _, _, _ => false)

/-- The header of the replica table (R421). -/
def replicaHeadOk (mem : Reader) (rep n : Nat) : Bool :=
  let b := mem rep 16
  rep == 0 || (le b 0 1 == 1 && le b 1 1 == n && allZero b 2 14)

/-! ### Tests 4 and 5 of R614 -/

/-- The table checks of the images, in the order of R614 with R162 before R129, R138 and R147; each rule over every operator before the
next: the code of the first that fails, 0 when all pass. -/
def tableCode (nets : List Net) : Nat :=
  let all := fun (f : Net → Oper → Bool) => nets.all fun n => n.opers.all (f n)
  if !all (fun _ o => qtOk o.q) then 0x0107
  else if !all (fun n o => fmtsOk o (n.bank o)) then 0x0204
  else if !all (fun _ o => intGridOk o) then 0x0206
  else if !all (fun n o => codebookOk o (n.bank o)) then 0x0205
  else if !nets.all (fun n => n.stages.all fun t => stageOk t.words) then 0x0107
  else if !all (fun _ o => winogradOk o) then 0x0107
  else if !all (fun _ o => lntOk o.l) then 0x0106
  else if !all (fun _ o => descOk o) ||
      !nets.all (fun n => n.stages.all fun t => t.ops.all fun p => match p.2 with | some q => pairOk p.1 q | none => true) then 0x0107
  else if !nets.all (fun n => progOk n.rd n.prog) then 0x0107
  else 0

/-- R222 for an operator at load (R223): nothing is tested where the output is empty (R238). -/
def loadShape (p : Oper × Option Oper) (f w h : Nat) : Nat := if State.emptyOutput p.1 w h then 0 else State.issueCheck p.1 p.2 f w h

/-- The widths of a rink's cells in a plan. -/
def rinkWidths (q : Plan) (l : Nat) : List Nat := ((q.cells.filter fun c => c.rink == l).map (·.width)).eraseDups

/-- The code of the first tile-shape check of a plan's images that fails (R223). -/
def shapeCode (nets : List Net) (x : PlanBlock) (f h : Nat) : Nat :=
  let codes := nets.flatMap fun n => match x.plans[n.plan]? with
    | some q => (rinkWidths q n.rink).flatMap fun w => n.stages.flatMap fun t => t.ops.map fun p => loadShape p f w h
    | none => []
  (codes.find? fun c => c != 0).getD 0

/-! ### Acceptance (R292 to R294) -/

/-- What a stream gives the acceptance of a plan: H, line_px, channels, sample bytes, buffers and line period. -/
structure StreamGeom where
  h : Nat
  px : Nat
  chans : Nat
  bytes : Nat
  nbuf : Nat
  period : Nat
  deriving DecidableEq, Repr

/-- T0 tiles of an operator for a cell, at the bounds of R221 (R216, R239). -/
def t0Tiles (o : Oper) (w h : Nat) : Nat :=
  let n := o.l.levels.foldl (fun n l => n * cdiv (o.knownExtent l w h) (max 1 l.t0)) 1
  if o.winograd then 16 * n else n

/-- Array time of an operator for a cell, rink cycles: T0 tiles × passes × 32 (R134, R168). -/
def arrayTime (o : Oper) (w h : Nat) : Nat := if o.onRowUnit then 0 else t0Tiles o w h * (partsOf o.q.act * partsOf o.q.wt) * 32

/-- Elements per rink cycle of a row function, and the reads it makes (R188). -/
def fnRate (fn : Nat) : Nat × Nat := if fn = 0x07 then (32, 1) else if fn = 0x10 ∨ fn = 0x11 then (16, 3) else if fn = 0x12 then (16, 2) else (16, 1)

/-- Row-unit time of an operator for a cell, rink cycles (R188, R247, R252). -/
def rowTime (o : Oper) (w h : Nat) : Nat :=
  let ext := fun d => match o.l.level d with | some l => o.knownExtent l w h | none => 1
  let n := ext dOC * ext dOX * ext dOY
  if o.isPool then cdiv (n * o.d.kx * o.d.ky) 16
  else if o.isArgmax then cdiv n 16
  else if o.isRowFn || o.isPair then cdiv (n * (fnRate o.d.fn).2) (fnRate o.d.fn).1
  else 0

/-- Array time and row-unit time of a stage per cell (R294 test 2). -/
def stageTimes (t : Stage) (w h : Nat) : Nat × Nat :=
  let ops := t.ops.flatMap fun p => p.1 :: p.2.toList
  ((ops.map fun o => arrayTime o w h).foldl (· + ·) 0, (ops.map fun o => rowTime o w h).foldl (· + ·) 0)

/-- The columns of a line are covered by cells that abut, given in any order; `from'` is the first column still to cover (R267). -/
def coversFrom : Nat → List PlanCell → Nat → Nat → Bool
  | 0, _, _, _ => false
  | n + 1, cs, from', px =>
    if px ≤ from' then cs.isEmpty
    else match cs.filter fun c => c.x0 == from' with
      | [c] => coversFrom n (cs.filter fun d => d.x0 != from') (from' + c.width) px
      | _ => false

/-- Test 1 of R294: the logical rink at fault, 0xFF where none is named; none when the test passes. -/
def planStructure (clean : Bool) (x : PlanBlock) (p : Nat) (q : Plan) (nets : List Net) (geoms : List StreamGeom) : Option Nat :=
  let nr := 4 * q.k
  let whole := clean && decide (1 ≤ q.k ∧ q.k ≤ 4) && decide (1 ≤ q.div ∧ q.div ≤ 4) &&
    (if p = 0 then q.imageBytes == 0 else decide (1 ≤ q.imageBytes ∧ q.imageBytes ≤ spadBytes) && decide (q.imageBase < 2 ^ 28)) &&
    q.gateMax == (q.cells.map (·.gateOff)).foldl max 0 &&
    (q.cells.all fun c => decide (c.piste < x.pistes.length) && decide (c.rink < nr)) &&
    (List.range x.pistes.length).all fun i =>
      let cs := q.cells.filter fun c => c.piste == i && !c.replica
      coversFrom (cs.length + 1) cs 0 (match geoms[i]? with | some g => g.px | none => 0)
  let bad := (List.range nr).find? fun l =>
    let mine := q.cells.filter fun c => c.rink == l
    match q.rinks[l]?, nets.find? (fun n => n.plan == p && n.rink == l) with
    | some r, some n =>
      let s := match n.groups with | g :: _ => ((List.range 8).filter fun c => g.has c).length | [] => 0
      !(r.cells == mine.length && r.stages == s && r.groups == n.prog.nGroups && (r.partner == 0xFF || r.partner == l ^^^ 1) &&
        (mine.map (·.pos)).Nodup && mine.all fun c => decide (64 ≤ c.width ∧ c.width ≤ 4096) && c.width % 32 == 0)
    | _, _ => true
  if !whole then some 0xFF else bad

/-- The rinks of a plan with their entries and images. -/
def planRinks (p : Nat) (q : Plan) (nets : List Net) : List (Nat × PlanRink × Net) :=
  (q.rinks.zipIdx 0).filterMap fun r => (nets.find? fun n => n.plan == p && n.rink == r.2).map fun n => (r.2, r.1, n)

/-- Tests 2 to 9 of R294, in order: the rink and the test of the first that fails. Times are in ns × rink_mhz, so that a rink cycle is
1,000 (R292). `left` is the largest gate_max of the plans that the switch can leave (R293). -/
def planTimes (x : PlanBlock) (p : Nat) (q : Plan) (nets : List Net) (geoms : List StreamGeom) (node mhz left : Nat) :
    Option (Nat × Nat) :=
  let h := match geoms with | g :: _ => g.h | [] => 0
  let rs := planRinks p q nets
  let geom := fun (c : PlanCell) => geoms[c.piste]?.getD ⟨0, 0, 0, 0, 0, 0⟩
  let mine := fun l => q.cells.filter fun c => c.rink == l
  let copy := fun (c : PlanCell) => cdiv ((geom c).chans * (geom c).h * c.width * (geom c).bytes) 256 * 1000 + 500 * mhz
  let leg := fun (c : PlanCell) (b : Nat) =>
    if !bit b 7 then 0 else if bits b 5 4 ≠ node then 4000 else if bits b 3 0 / 4 = c.rink / 4 then 600 else 1200
  let halo := fun (n : Net) (c : PlanCell) => ((n.groups.map (·.nHalo)).foldl (· + ·) 0) * max (leg c c.left) (leg c c.right) * mhz
  let sw := if p = 0 then 0 else (left - x.period) + cdiv q.imageBytes 16
  let done := fun (r : PlanRink) k => if r.groups = 1 then (8 + (k + r.stages - 1) * r.interval) * 1000 else r.busy * 1000
  let fail := fun (t : Nat) (f : Nat × PlanRink × Net → Bool) => (rs.find? fun e => !f e).map fun e => (e.1, t)
  let t2 := fail 2 fun e => (rinkWidths q e.1).all fun w => e.2.2.stages.all fun t =>
    decide ((stageTimes t w h).1 ≤ e.2.1.interval ∧ (stageTimes t w h).2 ≤ e.2.1.interval)
  let t3 := fail 3 fun e => e.2.1.groups != 1 ||
    e.2.1.busy == 8 + (e.2.1.cells + x.rerunMax + e.2.1.stages - 1) * e.2.1.interval
  let t4 := fail 4 fun e => (mine e.1).zipIdx.all fun c =>
    decide (400 * mhz + copy c.1 + halo e.2.2 c.1 + done e.2.1 (c.2 + 1) ≤ c.1.gateOff * mhz)
  let t5 := fail 5 fun e => match mine e.1 with
    | c :: _ => decide ((x.skew + 400 + sw) * mhz + copy c + e.2.1.busy * 1000 ≤ q.div * x.period * mhz)
    | [] => true
  let prim := q.cells.filter fun c => !c.replica
  let px := (prim.map fun c => c.width * (geom c).h).foldl (· + ·) 0
  let t8 := fail 8 fun e => decide (2 ≤ e.2.1.sumNbuf ∧ 64 ≤ e.2.1.interval)
  let hold := x.crops.isEmpty && x.rerunMax == 0
  t2.or <| t3.or <| t4.or <| t5.or <|
    if 300000 < x.skew + q.gateMax + 2000 + sw then some (0xFF, 6)
    else if 8000 * prim.length < px then some (0xFF, 7)
    else t8.or <|
      if hold || geoms.all fun g => decide (x.skew + q.gateMax + 2000 ≤ (g.nbuf - 1) * x.period) then none else some (0xFF, 9)

end Sys2Proof.Machine
end

