-- ==== Sys2Proof/Machine/Jobs.lean ====
section
/-! DEFINITION. JOB_LOAD with the tests of R614 and the bind, JOB_STOP, and the end of the scrub (R461, R462, R613 to R615). -/

namespace Sys2Proof.Machine

/-- The body of a JOB_LOAD (R613). -/
structure LoadCmd where
  index : Nat
  slot : Nat
  domains : Nat
  fahead : Nat
  loadBase : Nat
  planOff : Nat
  imgOff : Nat
  imgBytes : Nat
  imgStride : Nat
  progBase : Nat
  mcastOff : Nat
  mcastN : Nat
  replicaOff : Nat
  adaptOff : Nat
  deriving DecidableEq, Repr

def parseLoad (b : List Byte) : LoadCmd :=
  { index := le b 0 1, slot := le b 1 1, domains := le b 2 1, fahead := le b 3 1, loadBase := le b 4 4, planOff := le b 8 4
    imgOff := le b 0xC 4, imgBytes := le b 0x10 4, imgStride := le b 0x14 4, progBase := le b 0x18 4, mcastOff := le b 0x1C 4
    mcastN := le b 0x20 1, replicaOff := le b 0x24 4, adaptOff := le b 0x28 4 }

/-- The domains of a mask, in ascending letter order. -/
def domainList (m : Nat) : List Nat := (List.range 4).filter fun d => bit m d

/-- Why a JOB_LOAD is refused: the order of the test, its code, and the plan, rink and test of R294. -/
structure LoadFail where
  order : Nat
  code : Nat
  plan : Nat
  rink : Nat
  test : Nat
  deriving DecidableEq, Repr

/-- What a JOB_LOAD that passes binds: the job, the multicast entries, the size of its body, the plans that fail R294 with the last
failure. -/
structure LoadDone where
  job : JobSt
  mcast : List (Nat × Nat)
  body : List Byte
  bad : List (Nat × Nat)
  deriving DecidableEq, Repr

/-- A sum of fractions, as a numerator and a denominator. -/
def addFrac (a b : Nat × Nat) : Nat × Nat := (a.1 * b.2 + b.1 * a.2, a.2 * b.2)

namespace State

/-! ### The tests of R614 -/

/-- Test 1: length, reserved fields, ranges, a free slot. -/
def loadRanges (s : State) (b : List Byte) : Bool :=
  let c := parseLoad b
  b.length == 48 && allZero b 0x21 3 && allZero b 0x2C 4 && decide (c.index < 16) && decide (c.slot < 4) && decide (c.domains < 16) &&
    decide (1 ≤ c.fahead ∧ c.fahead ≤ 4) && decide (c.loadBase < 2 ^ 28) && c.loadBase % 16384 == 0 &&
    decide (64 ≤ c.imgBytes ∧ c.imgBytes ≤ spadBytes) && c.imgBytes % 64 == 0 && decide (c.progBase < 2 ^ 17) && decide (c.mcastN ≤ 16) &&
    (s.job c.slot).isNone

/-- Test 2: the body of the image, or the code (R459, R460). -/
def loadImage (s : State) (c : LoadCmd) : Nat × List Byte :=
  match s.modelAt c.index with
  | none => (0x0608, [])
  | some m =>
    let o := s.owner m.slot
    let env := m.clear.take 64
    let sig := le env 12 4
    let pub := sub m.clear (64 + sig) 60
    if !s.mounted then (0x0608, [])
    else if o.state ≠ 1 then (0x060C, [])
    else
      let good := le env 0 4 == 0x424A5841 && le env 4 1 == 1 && allZero env 6 2 && allZero env 0x30 16 && sha256 pub == o.hash &&
        ownerKeyOk pub && hssVerify pub (sub m.clear 64 sig) env
      match gcmDec (s.kModel m.slot) (leBytes 8 m.ctr ++ zeros 4) env m.ct m.tag with
      | some body => if good && sha256 body == sub env 0x10 32 then (0, body) else (0x0608, [])
      | none => (0x0608, [])

/-- The domains that other jobs hold. -/
def heldDomains (s : State) : List Nat := s.jobs.flatMap fun e => match e.2 with | some x => x.domains | none => []

/-- Test 3 (R462, R569, R614). -/
def loadDomains (s : State) (c : LoadCmd) (count : Nat) : Bool :=
  let ds := domainList c.domains
  (ds.all fun d => s.domState d == 0 && !s.heldDomains.contains d && (List.range 4).all fun i => s.rkState (4 * d + i) == 0) &&
    decide (s.power.scrubUntil ≤ s.time.elapsed) && ds.length == count

/-- GDDR6 as it will be with the body in place. -/
def loadReader (s : State) (base : Nat) (body : List Byte) : Reader := fun a n =>
  if base ≤ a ∧ a + n ≤ base + body.length then sub body (a - base) n
  else (List.range n).map fun i =>
    if base ≤ a + i ∧ a + i < base + body.length then body.getD (a + i - base) 0 else (s.gddrRd (a + i) 1).getD 0 0

/-- What the stream of a piste gives the acceptance. -/
def pisteGeom (s : State) (p : Piste) : StreamGeom :=
  let g := feStrm p.stream
  if 32 ≤ p.stream then ⟨0, 0, 0, 0, 0, 0⟩
  else
    let geom := s.word (g + 0x44)
    let store := s.word (g + 0x50)
    ⟨geomH geom, geomPx geom, storeChans store, sampleBytes (storeFmt store), bufCount (s.word (g + 0x54)), s.getF g FE_STRM_LPER_period_ns⟩

/-- The largest gate_max of the plans larger than plan p: those that a switch to it can leave (R293). -/
def gateLeft (x : PlanBlock) (p : Nat) : Nat := ((x.plans.take p).map (·.gateMax)).foldl max 0

/-- R294 for plan p: the rink and the test that fail. -/
def acceptPlan (s : State) (clean : Bool) (x : PlanBlock) (p : Nat) (q : Plan) (nets : List Net) : Option (Nat × Nat) :=
  let geoms := x.pistes.map s.pisteGeom
  match planStructure clean x p q nets geoms with
  | some r => some (r, 1)
  | none => planTimes x p q nets geoms (s.getF tzCommonPage TZ_CFG_node) (s.getF dvPage DV_SIZE9_rink_mhz) (gateLeft x p)

/-- The verdict rate of a plan, in verdicts per nanosecond (R295). -/
def planRate (x : PlanBlock) (p : Nat) : Nat × Nat :=
  match x.plans[p]? with
  | some q => (q.cells.length, max 1 (q.div * x.period))
  | none => (0, 1)

/-- Test 7 (R283, R288, R295, R516). -/
def loadBinding (s : State) (x : PlanBlock) : Bool :=
  let gs := x.pistes.map s.pisteGeom
  let bound := s.jobs.filterMap fun e => e.2.map fun y => planRate y.blk (s.getF (feSlm e.1) FE_SLM_STAT_plan)
  let rate := bound.foldl addFrac (planRate x 0)
  (match gs with
   | g :: rest => rest.all (fun h => h.h == g.h && h.period == g.period) && g.period != 0 && x.period == g.h * g.period
   | [] => false) &&
  decide (1000 * rate.1 ≤ 8 * rate.2) && x.pistes.all fun p => decide (p.ring < 32) && s.flag (pxVr p.ring) PX_VR_CFG_en

/-- Why a test refuses where it names no plan. -/
def loadFail (order code : Nat) : Except LoadFail LoadDone := .error ⟨order, code, 0xFF, 0xFF, 0xFF⟩

/-- Tests 3 to 7 of R614 in order, on the body of the image. -/
def loadChecks (s : State) (c : LoadCmd) (body : List Byte) : Except LoadFail LoadDone :=
  let base := 64 * c.loadBase
  let mem := s.loadReader base body
  let rep := if c.replicaOff = 0 then 0 else base + c.replicaOff
  let x := parseBlock mem (base + c.planOff) rep
  if !s.loadDomains c x.domains then loadFail 3 0x0107
  else
    let img0 := (base + c.imgOff, c.imgBytes, c.imgStride)
    let nets := x.plans.zipIdx.flatMap fun q => (List.range (4 * q.1.k)).map fun l =>
      if q.2 = 0 then readNet mem 0 l (img0.1 + l * c.imgStride) c.imgBytes c.progBase
      else readNet mem q.2 l (64 * (q.1.imageBase + l * q.1.imageStride)) q.1.imageBytes c.progBase
    let mcast := if c.mcastOff = 0 then [] else (List.range c.mcastN).map fun g => mem (base + c.mcastOff + 32 * g) 32
    let node := s.getF tzCommonPage TZ_CFG_node
    let bytes := fun p (q : Plan) => if p = 0 then c.imgBytes else q.imageBytes
    let tables := tableCode nets
    if tables ≠ 0 then loadFail 4 tables
    else if s.gddrEnd < base + body.length || !mcast.all mcastOk || (c.adaptOff != 0 && !adaptOk mem (base + c.adaptOff) x nets) ||
        !replicaHeadOk mem rep x.plans.length ||
        !(x.plans.zipIdx.all fun q => replicaOk mem rep node (bytes q.2 q.1) x q.2 q.1 nets) then loadFail 4 0x0107
    else
      let h := match x.pistes.map s.pisteGeom with | g :: _ => g.h | [] => 0
      let shape := shapeCode nets x c.fahead h
      if shape ≠ 0 then loadFail 5 shape
      else
        let clean := fun p => planClean mem (base + c.planOff + le (mem (base + c.planOff) 64) (0x14 + 4 * p) 4) &&
          (p != 0 || blockOk mem (base + c.planOff) h x)
        let res := x.plans.zipIdx.map fun q => (q.2, s.acceptPlan (clean q.2) x q.2 q.1 nets)
        let bad := res.filterMap fun r => r.2.map fun e => (r.1, e)
        match x.plans, bad with
        | [], _ => .error ⟨6, 0x0107, 0, 0xFF, 1⟩
        | _, (0, r, t) :: _ => .error ⟨6, 0x0107, 0, r, t⟩
        | _, _ =>
          if !s.loadBinding x then loadFail 7 0x0107
          else
            let seed := s.ns % 65536
            let ds := domainList c.domains
            let adapt := if c.adaptOff = 0 then none else some
              { desc := parseAdapt mem (base + c.adaptOff) nets, samples := [], caps := 0, run := none, lastStart := none
                pausing := false, back := 2, wantSwap := false, next := none, rollback := false, sinceSwap := 0 : AdaptSt }
            .ok {
              job := {
                index := c.index, owner := match s.modelAt c.index with | some m => m.slot | none => 0
                domains := ds, fahead := c.fahead, loadBase := c.loadBase, progBase := c.progBase, img0 := img0, blk := x
                hasReplica := c.replicaOff != 0, adapt := adapt, bind := ds, nextSet := 0, sets := [], planStart := 0
                lfsr := if seed = 0 then 0xACE1 else seed, spotPick := 0, switch := none, seen := [], started := [], reports := []
                emits := [], stopping := false, stopRings := [], digest := sha256 body }
              mcast := mcast.map parseMcast, body := body, bad := bad.map fun e => (e.1, e.2.1) }

/-- The tests of R614 in order. -/
def loadTests (s : State) (b : List Byte) : Except LoadFail LoadDone :=
  let c := parseLoad b
  if !s.loadRanges b || decide (s.gddrEnd ≤ 64 * c.loadBase) then loadFail 1 0x0107
  else match s.loadImage c with
    | (0, body) => s.loadChecks c body
    | (code, _) => loadFail 2 code

/-! ### The bind (R264, R281, R322, R356, R380, R435, R460, R613, R640) -/

/-- The register pages of a job's rinks. -/
def rinkPages (n : Nat) : List Nat :=
  [rk n, clRink n] ++ (List.range 8).flatMap fun c => [cr (8 * n + c), clCore (8 * n + c)]

/-- The sealed region and the key slot of job slot j: those after the staging area's (log 50). -/
def jobRegion (j : Nat) : Nat := (Config.stagingSeal + 1 + j) % 8
def jobKey (j : Nat) : Nat := (Config.stagingKey + 1 + j) % 16

/-- The adaptation words of a Slalom page at their reset values (R383). -/
def adaptWords (s : State) (j : Nat) : State :=
  [0x64, 0x68, 0x6C, 0x70, 0x74].foldl (fun s o => s.setWord (feSlm j + o) (regReset (feSlm j + o)).toNat) s

/-- The adaptation of a job starts PAUSED (R380). -/
def adaptBind (s : State) (j : Nat) (a : AdaptSt) : State :=
  let p := feSlm j
  let s1 := s.lockPage (dmCh 15)
  if s.initReadable a then (s1.adaptInit a.desc 0).setF p FE_SLM_ADAPT_state 2
  else s1.setF p FE_SLM_ADAPT_state 4

/-- The Puppeteer binds a job. -/
def bindJob (s : State) (j : Nat) (d : LoadDone) : State :=
  let p := feSlm j
  let x := d.job
  let s1 := s.sealRegion (jobKey j) (jobRegion j) (x.loadBase / 16384) (cdiv d.body.length (2 ^ 20))
  let s2 := (s1.gdWr (64 * x.loadBase) d.body).setJob j (some x)
  let s3 := (d.mcast.zipIdx).foldl (fun s e => s.setGond e.2 { job := j, key := e.1.1, logical := e.1.2, mapped := 0, runs := 0, run := none }) s2
  let s4 := (if d.mcast.isEmpty then s3 else s3.setF gdPage GD_CTRL_en 1).bindPlan j x 0
  let mask := x.domains.foldl setBit 0
  let good := ((List.range x.blk.plans.length).filter fun i => !d.bad.any (fun e => e.1 == i)).foldl setBit 0
  let s5 := ((((s4.setF p FE_SLM_STAT_avail good).setF p FE_SLM_STAT_switching 0).setF p FE_SLM_STAT_plan 0).setF p FE_SLM_STAT_live
    mask).setF p FE_SLM_STAT_job_dom mask
  let s6 := (s5.adaptWords j).setF p PG_CTRL_enable 1
  let s7 := match x.adapt with | some a => s6.adaptBind j a | none => s6
  let pages := (s7.rinksOf j).flatMap rinkPages
  let s8 := pages.foldl (fun s q => (s.setF q PG_CTRL_enable 1).lockPage q) s7
  s8.setF ppMbPage PP_MB_STAT_bound (setBit (s8.getF ppMbPage PP_MB_STAT_bound) j)

/-- PP_MB_PLAN shows the latest failure of R294 (R468). -/
def showPlanFail (s : State) (plan rink : Nat) : State := (s.setF ppMbPage PP_MB_PLAN_plan plan).setF ppMbPage PP_MB_PLAN_rink rink

/-- JOB_LOAD (R613, R614). -/
def cmdJobLoad (r : Nat) (s : State) (f : List Byte) : State :=
  let b := frameBody f
  let j := le b 1 1
  let s0 := match s.modelAt (le b 0 1) with | some m => m.blocks.foldl (fun s k => s.readBlk k 1) s | none => s
  let show' := fun (s : State) code test =>
    ((s.setF ppMbPage PP_MB_LOAD_code code).setF ppMbPage PP_MB_LOAD_slot j).setF ppMbPage PP_MB_LOAD_test test
  match s.loadTests b with
  | .error e =>
    let s1 := show' (if 1 < e.order then s0 else s) e.code e.order
    let s2 := if e.order = 6 then s1.showPlanFail e.plan e.rink else s1
    ((s2.raise ppMbPage 1).finish r e.code ([e.order, e.plan, e.rink, e.test].map (BitVec.ofNat 8))).post ppMbPage e.code
  | .ok d =>
    let s1 := (show' s0 0 0).bindJob j d
    let s2 := match d.bad.getLast? with | some e => s1.showPlanFail e.1 e.2 | none => s1
    (s2.raise ppMbPage 0).finish r 0 [0, 0xFF, 0xFF, 0xFF]

/-- JOB_STOP (R615): a slot that holds no job answers at once. -/
def cmdJobStop (r : Nat) (s : State) (f : List Byte) : State :=
  let j := le (frameBody f) 0 1
  match if j < 4 then s.job j else none with
  | none => s.finish r 0 []
  | some _ =>
    let s1 := s.stopJob j
    match s1.job j with
    | none => s1
    | some x => (s1.setJob j (some { x with stopRings := x.stopRings ++ [r] })).setF ppMbPage PP_MB_STAT_busy
        (setBit (s1.getF ppMbPage PP_MB_STAT_busy) j)

/-! ### The end of the scrub (R461, R462, R615) -/

/-- The units of stripe memory that hold a stream's buffers and table banks, as (first, number). -/
def strmUnits (s : State) (k : Nat) : List (Nat × Nat) :=
  let p := feStrm k
  let (geom, store, buf) := match (s.strm k).cfg with
    | some c => (c.geom, c.store, c.buf)
    | none => (s.word (p + 0x44), s.word (p + 0x50), s.word (p + 0x54))
  let t := s.word (p + 0xD0)
  [(bits buf 13 0, bufCount buf * bufUnits geom store), (bits t 13 0, 75), (bits t 27 14, 75)]

/-- The stripe memory of a job's streams is zeroed; what a running stream outside them holds is not the job's. -/
def scrubStripes (s : State) (ks : List Nat) : State :=
  let mine := ks.flatMap s.strmUnits
  let kept := ((List.range 32).filter fun k => !ks.contains k).flatMap s.heldUnits
  let inside := fun (rs : List (Nat × Nat)) (u : Nat) => rs.any fun r => decide (r.1 ≤ u ∧ u < r.1 + r.2)
  { s with stripe := s.stripe.filter fun e => !inside mine (e.1 / 4096) || inside kept (e.1 / 4096) }

/-- The buffers of a running stream that nobody holds are free again. -/
def freeStream (s : State) (k : Nat) : State :=
  match (s.strm k).cfg with
  | none => s
  | some c => (List.range (bufCount c.buf)).foldl (fun s b =>
    let member := s.jobs.any fun e => match e.2 with
      | some x => x.sets.any fun t => t.members.any fun m => m.held && m.info.stream == k && m.info.buf == b && !m.info.lost
      | none => false
    let waits := s.fe.handed.any fun h => h.stream == k && h.buf == b && !h.lost
    if member || waits then s else s.freeBuffer k b) s

/-- The pages that the Puppeteer locked for a job are free. -/
def releasePages (s : State) (n : Nat) : State :=
  (rinkPages n).foldl (fun s q => (s.setF q PG_CTRL_enable 0).unlockPage q) s

/-- The scrubber is done with the rinks and the stripe buffers of job j. -/
def scrubDone (s : State) (j : Nat) : State :=
  match s.job j with
  | none => s
  | some x =>
    if !x.stopping then s
    else
      let p := feSlm j
      let rinks := s.rinksOf j
      let s1 := rinks.foldl (fun s n => ((s.loseRink n).setF (rk n) RK_STATE_state 0).releasePages n) s
      let ks := (x.blk.pistes.map (·.stream)).eraseDups.filter fun k => decide (k < 32)
      let own := ks.filter fun k => s.jobs.all fun e => e.1 == j || match e.2 with
        | some y => y.blk.pistes.all fun q => q.stream != k
        | none => true
      let s2 := s1.scrubStripes own
      let hs := (s2.fe.handed.map fun h => { h with waiting := h.waiting.filter (· != j) }).filter fun h => !h.waiting.isEmpty
      let s3 := ({ s2 with fe := { s2.fe with handed := hs } } : State).setJob j none
      let s4 := ks.foldl freeStream s3
      let s5 := (s4.loadKey (jobKey j)).setF mxCommonPage MX_SEALn_BASE_en 0 (jobRegion j)
      let s6 := (List.range 16).foldl (fun s g => if (s.gond g).job = j then s.setGond g .none else s) s5
      let none' := (List.range 16).all fun g => (s6.gond g).job == 4
      let s7 := if none' then s6.setF gdPage GD_CTRL_en 0 else s6
      let s8 := ((s7.adaptWords j).setWord (p + 0x44) 0).setF p PG_CTRL_enable 0
      let s9 := match x.adapt with | some _ => if (List.range 4).any (fun i => (s8.adaptOf i).isSome) then s8 else s8.unlockPage (dmCh 15) | none => s8
      let others := s9.jobs.any fun e => match e.2 with | some y => y.stopping | none => false
      let left := rinks.foldl clrBit (s9.getF scPage SC_SCRUB_rinks)
      let s10 := (s9.setF scPage SC_SCRUB_rinks left).setF scPage SC_SCRUB_stripe (b01 others)
      let s11 := (s10.setF ppMbPage PP_MB_STAT_bound (clrBit (s10.getF ppMbPage PP_MB_STAT_bound) j)).setF ppMbPage PP_MB_STAT_busy
        (clrBit (s10.getF ppMbPage PP_MB_STAT_busy) j)
      x.stopRings.foldl (fun s r => s.finish r 0 []) ((s11.raise scPage 2).raise ppMbPage 2)

end State

/-! ### The commands -/

/-- JOB_LOAD (R613, R614). -/
def execJobLoad (ring : Fin 8) (s : State) : Host.Outcome State Fault Refusal := s.eng (s.serve ring 0x73 (State.cmdJobLoad ring))
/-- JOB_STOP (R615). -/
def execJobStop (ring : Fin 8) (s : State) : Host.Outcome State Fault Refusal := s.eng (s.serve ring 0x74 (State.cmdJobStop ring))
/-- SCRUB_COMPLETE (R461). -/
def execScrubComplete (j : Fin 4) (s : State) : Host.Outcome State Fault Refusal := s.eng (s.scrubDone j)

end Sys2Proof.Machine
end

