-- ==== Sys2Proof/Machine/Regs.lean ====
section
/-! DEFINITION. The register space as the agents of Strings reach it: page headers (R33 to R46), the effect of a write at any address
(R11, R12, R37, R40, R503), soft resets (R35, R639, R642), what a read returns and does (R36, R48, R201, R356, R462, R464, R537, R598,
R600), and the replay of host requests after a power state (R570). -/

namespace Sys2Proof.Machine

/-- A word of a kind of page that shows what another rule's state machine, record or count of work in progress holds, and that a soft
reset of the page therefore leaves (log 52). -/
def softKeeps (k : Kind) (off : Nat) : Bool :=
  match k with
  | .dv => decide (0x50 ≤ off ∧ off ≤ 0x5C) || off == 0x180 || off == 0x184
  | .sc => decide (0x40 ≤ off ∧ off < 0x200)
  | .pw => off == 0x44 || (decide (0x200 ≤ off ∧ off < 0x280) && [4, 0x10, 0x14].contains (off % 0x20))
  | .ck => off == 0x58 || off == 0x64
  | .pxCommon => off == 0x40
  | .mxCommon => off == 0x40 || off == 0x44
  | .mxCh => off == 0x44
  | .nsCh => off == 0x40
  | .feSlm => off == 0x44 || off == 0x64 || off == 0x68 || off == 0x6C
  | .nsCommon => decide (0x40 ≤ off ∧ off ≤ 0x68)
  | .ppMb => off == 0x40
  | .tzCommon => off == 0x40 || off == 0x44
  | .rk => off == 0x44 || off == 0x5C
  | .clRink | .clCore => off == 0x44 || off == 0x48 || decide (0x80 ≤ off ∧ off < 0xA0)
  | .gd => off == 0x48
  | .dmCommon => off == 0x40
  | .cr => off == 0x48 || off == 0x4C
  | .wx => off == 0x44
  | _ => false

/-- A header word that a soft reset leaves (R35). -/
def softHeader (off : Nat) : Bool := off == 0x20 || off == 0x24 || off == 0x28 || off == 0x2C

/-- Where the MSI-X table and its pending bits lie in the register space (R503). -/
abbrev msixTable : Nat := bar4 + 0x7FE000
abbrev msixPba : Nat := bar4 + 0x7FF000
def inMsixTable (key : Nat) : Bool := decide (msixTable ≤ key ∧ key < msixTable + 0x800)
def inPba (key : Nat) : Bool := decide (msixPba ≤ key ∧ key < msixPba + 16)

/-- The debug window (R28). -/
def inDebug (key : Nat) : Bool := decide (0x2000000 ≤ key ∧ key < 0x4000000)

namespace State

/-! ### Soft reset (R35, R639, R640, R642) -/

/-- What a page's soft reset does beyond its registers. -/
def softEffect (s : State) (k : Kind) (i : Nat) : State :=
  match k with
  | .tb => s.timeSoftReset
  | .ppSess => (s.closeSession i).setWord (ppSess i + 0x14) 0
  | .tzPort => s.tzDown i
  | .feCommon => ({ s with fe := { s.fe with tld := none } } : State).followRights
  | .pc => (s.setF pcPage PC_CTRL_busy (b01 s.cnt.collect.isSome)).followRights
  | .dmCh => if (s.dmaRun i).slot < 8 then
      (s.setDma i ⟨8, false, 0⟩).setF dmCommonPage DM_BUSY_busy (clrBit (s.getF dmCommonPage DM_BUSY_busy) i) else s
  | .pxCmd => s.dropReplies i
  | .pxVr => { s with vrings := tabPut (fun _ => ⟨false, [], none, []⟩) s.vrings i ⟨false, [], none, []⟩ }
  | _ => s

/-- A stream whose page is reset stops as R65 gives: `s` has the page's registers at reset, and `old` gives the padding sample and the
line period with which the stop fills the missing rows (R642). -/
def softStop (s old : State) (page i : Nat) : State :=
  let s1 := (s.setWord (page + 0x4C) (old.word (page + 0x4C))).setWord (page + 0x5C) (old.word (page + 0x5C))
  let s2 := s1.stopStream i
  (s2.setWord (page + 0x4C) (s.word (page + 0x4C))).setWord (page + 0x5C) (s.word (page + 0x5C))

/-- A soft reset of a page: its registers return to reset but for those of R35, and its body is closed for at most 64 Strings cycles. -/
def softReset (s : State) (page : Nat) : State :=
  match pageInfo page with
  | none => s
  | some (k, i) =>
    let on := s.getF page PG_CTRL_enable
    let gone := fun (key : Nat) => decide (page ≤ key ∧ key < page + 0x1000) && !softHeader (key - page) && !softKeeps k (key - page)
    let s1 := { s with regs := s.regs.filter fun e => !gone e.1 }
    let s2 := if k = .feStrm then s1 else s1.setF page PG_CTRL_enable on
    let s3 := if k = .feStrm then s2.softStop s page i else s2.softEffect k i
    let stop := s3.time.elapsed + min 64 (Config.softResetCycles s3.freeCtr) * 5 * 2 ^ 32
    { s3 with softBusy := tabPut (fun _ => 0) s3.softBusy page stop, freeCtr := s3.freeCtr + 1 }

/-! ### Header registers -/

/-- A write to PG_CTRL (R33, R35, R61, R62, R64, R65, R640). -/
def pgCtrlWrite (a : Agent) (page v : Nat) (s : State) : State :=
  match pageInfo page with
  | some (.feStrm, k) =>
    if bit v 1 then (plainWrite a page 0xC (clrBit v 0) s).softReset page
    else
      let s1 := plainWrite a page 0xC (setBits v 0 0 (s.getF page PG_CTRL_enable)) s
      match bit v 0, (s1.strm k).cfg.isSome with
      | true, false => s1.startStream a k
      | true, true => s1.setF page FE_STRM_STAT_cfg_err 0
      | false, true => (s1.stopStream k).setF page PG_CTRL_enable 0
      | false, false => s1
  | _ =>
    let s1 := plainWrite a page 0xC v s
    if bit v 1 then s1.softReset page else s1

/-- A W1C write to PG_IRQ_STAT; `hwSet` are the bits that the hardware sets in the same cycle (R42, R43, R46). -/
def irqStatWrite (a : Agent) (page hwSet v : Nat) (s : State) : State :=
  let s1 := plainWrite a page 0x14 v s
  let s2 := (List.range 32).foldl (fun s b => if bit hwSet b && bit v b then s.raise page b else s) s1
  s2.resend page

/-- A write to PG_IRQ_EN (R46). -/
def irqEnWrite (a : Agent) (page v : Nat) (s : State) : State := (plainWrite a page 0x18 v s).resend page

/-- A write to PG_IRQ_FORCE (R43). -/
def irqForceWrite (page v : Nat) (s : State) : State := (List.range 32).foldl (fun s b => if bit v b then s.raise page b else s) s

/-- A write to PG_ERR_CNT (R33). -/
def errCntWrite (page v : Nat) (s : State) : State :=
  if bit v 31 then (s.setF page PG_ERR_CNT_count 0).setF page PG_ERR_CNT_last_cause 0 else s

/-- A write to PG_LOCK: the first since the lock was re-armed sets it, and records who locked the page (R40, R41). -/
def lockWrite (a : Agent) (page v : Nat) (s : State) : State :=
  let s1 := plainWrite a page 0x28 v s
  if bit v 0 && !s.woDone.contains (page + 0x28) then s1.setF page PG_LOCK_owner (if a == .host then 1 else 2) else s1

/-! ### The effect of a write -/

/-- A write to RK_SEMn takes effect in IDLE alone (R281). -/
def semRegWrite (a : Agent) (n off v : Nat) (s : State) : State :=
  if s.rkState n = 0 then plainWrite a (rk n) off v s else s.refuse a (rk n) off

/-- A write to a header register. -/
def headerWrite (a : Agent) (page off v : Nat) (s : State) : State :=
  match off with
  | 0x0C => pgCtrlWrite a page v s
  | 0x14 => irqStatWrite a page 0 v s
  | 0x18 => irqEnWrite a page v s
  | 0x1C => irqForceWrite page v s
  | 0x20 => errCntWrite page v s
  | 0x28 => lockWrite a page v s
  | _ => plainWrite a page off v s

/-- A write to a counter register of a page (R597, R598). -/
def counterRegWrite (a : Agent) (page off v : Nat) (s : State) : State :=
  if off < 0xF20 then selWrite a page ((off - 0xF00) / 4) v s
  else if off < 0xF60 then
    if off % 8 = 0 then cntLoWrite page ((off - 0xF20) / 8) v s else cntHiWrite page ((off - 0xF20) / 8) v s
  else plainWrite a page off v s

/-- A write to a body register, by the kind of page. -/
def bodyWrite (a : Agent) (k : Kind) (i page off v : Nat) (s : State) : State :=
  let plain := plainWrite a page off v s
  match k with
  | .dv => if off = 0x40 ∧ bit v 31 then s.setF dvPage DV_BAD_CNT_count 0 else plain
  | .ppSess => if off = 0x40 then sessCtrlWrite a i v s else if off = 0x44 then sessReqWrite a i v s
    else if 0x80 ≤ off ∧ off < 0xA0 then sessRespWrite i ((off - 0x80) / 4) v s else plain
  | .feCommon => if off = 0x48 then tableLoadWrite a v s else plain
  | .feStrm => if [0x40, 0x44, 0x48, 0x50, 0x54].contains off then strmCfgWrite a i off v s
    else if off = 0xF0 then strmTapWrite a i v s else plain
  | .feSlm => if off = 0x40 then slalomCtrlWrite a i v s else plain
  | .mxCh => if off = 0x40 then chCtrlWrite a i v s else plain
  | .pxCommon => if off = 0x44 then bar2WinWrite a v s else plain
  | .pxFault => if off = 0x48 then fltCfgWrite a v s else if off = 0x4C then fltIdxWrite a v s else plain
  | .pxCmd => if off < 0x50 then ringBaseWrite a page off v (s.flag page PX_CR_CFG_en) s else if off = 0x50 then crCfgWrite a i v s
    else if off = 0x54 then sqTailWrite a i v s else if off = 0x60 then cqHeadWrite a i v s else plain
  | .pxVr => if off < 0x48 then ringBaseWrite a page off v (s.flag page PX_VR_CFG_en) s else if off = 0x48 then vrCfgWrite a i v s
    else if off = 0x50 then vrRdWrite a i v s else plain
  | .tzCommon => if off = 0x40 then tzCfgWrite a v s else plain
  | .tzPort => if off = 0x40 then tzCtrlWrite a i v s else plain
  | .dmCh => if off = 0x40 then dmCtrlWrite a i v s else if 0x80 ≤ off then dmSlotWrite a i off v s else plain
  | .wnTab =>
    let w := 64 * i + (off - 0x800) / 0x20
    match off % 0x20 with
    | 0 => winCtrlWrite a w v s
    | 4 | 8 => winFieldWrite a w off v s
    | 0x10 => winTargetWrite a w v s
    | _ => plain
  | .tb => if off = 0x40 then ppsEnableWrite a v s else if off = 0x54 then timebaseSetWrite a v s
    else if off = 0x300 ∨ off = 0x304 then gpioWrite a off v s
    else if 0x100 ≤ off ∧ off < 0x300 ∧ off % 0x20 = 0x10 then markerArmWrite a ((off - 0x100) / 0x20) v s else plain
  | .ck => if off ≤ 0x54 then ckEnableWrite a off v s else if off = 0x60 then clkoutWrite a v s else plain
  | .pw => if off = 0x40 then psReqWrite a v s
    else if 0x200 ≤ off ∧ off < 0x280 then
      (match off % 0x20 with | 0 => domCtrlWrite a ((off - 0x200) / 0x20) v s | 8 => domThrWrite a ((off - 0x200) / 0x20) v s | _ => plain)
    else plain
  | .wx => if off = 0x40 then wxCtrlWrite a v s else plain
  | .pc => if off = 0x40 then pcCtrlWrite a v s
    else if 0x80 ≤ off ∧ off < 0x180 ∧ off % 16 = 0 then bwCfgWrite a ((off - 0x80) / 16) v s else plain
  | .cr => if off = 0x40 then seqCtrlWrite a i v s else if off = 0x70 then resInjectWrite a i v s
    else if off = 0x7C then crDataWrite a i v s else plain
  | .rk => if 0x100 ≤ off ∧ off < 0x200 then semRegWrite a i off v s else plain
  | _ => plain

/-- The effect of an admitted write to a register of a page. -/
def regEffect (a : Agent) (page off v : Nat) (s : State) : State :=
  match pageInfo page with
  | none => s
  | some (k, i) =>
    if off < 0x40 then headerWrite a page off v s
    else if isCntOff k off then counterRegWrite a page off v s
    else bodyWrite a k i page off v s

/-- A vector is unmasked, or masked (R46). -/
def vectorCtrl (s : State) (vec v : Nat) : State := (s.setWord (msixTable + 16 * vec + 12) (v % 2)).sendPending vec

/-- A write of the host to the MSI-X table (R46, R503). -/
def msixWrite (s : State) (key v : Nat) : State :=
  if key % 16 = 12 then s.vectorCtrl ((key - msixTable) / 16) v else s.setWord key v

/-! ### Reads -/

/-- A read of a LO register latches its HI register (R598). -/
def latchLo (s : State) (key hi : Nat) : State :=
  { s with cnt := { s.cnt with latchHi := tabPut (fun _ => 0) s.cnt.latchHi key (hi + 1) } }

/-- The value of a HI register of a counter: what the latest read of its LO register latched. -/
def latchedHi (s : State) (key live : Nat) : Nat :=
  match tabGet (fun _ => 0) s.cnt.latchHi (key - 4) with | 0 => live | v + 1 => v

/-- PG_STAT (R33, R36). -/
def pgStat (s : State) (page : Nat) : Nat :=
  let off := s.clkOff page
  let busy := s.resetBusy page
  s.getF page PG_STAT_set_evt * 2 ^ 16 + b01 off * 4 + b01 busy * 2 + b01 (!off && !busy)

/-- RK_SRC (R282). -/
def rkSrc (s : State) (n : Nat) : Nat :=
  let cores := (List.range 8).foldl (fun w c => w + b01 (s.asserts (cr (8 * n + c))) * 2 ^ (c + 1)) (b01 (s.asserts (rk n)))
  (List.range 8).foldl (fun w c => w + b01 (s.asserts (clCore (8 * n + c))) * 2 ^ (c + 10)) (cores + b01 (s.asserts (clRink n)) * 2 ^ 9)

/-- CR_SEQ_STAT (R177, R200). -/
def seqStat (s : State) (k : Nat) : Nat :=
  let w := s.instrAt k
  let waits := s.flag (cr k) CR_SEQ_CTRL_run && iWaitEn w && s.semCount (k / 8) (iWaitSem w) == 0
  s.word (cr k + 0x44) / 2 ^ 24 * 2 ^ 24 + (if waits then iWaitSem w * 2 ^ 18 + 2 ^ 17 else 0) + s.getF (cr k) CR_SEQ_STAT_halted * 2 ^ 16 +
    s.busyBits k

/-- CR_ACC_STATEk (R171, R200): a tile whose sums are complete, and one that is not. -/
def accStates (s : State) (k j : Nat) : Nat :=
  (s.ops k).foldl (fun w p => p.accs.foldl (fun w t =>
    if t.num / 16 = j then w + (if p.complete t then 2 else 1) * 4 ^ (t.num % 16) else w) w) 0

/-- GD_DATA (R356). -/
def gdData (s : State) : Nat :=
  let g := s.gond (s.getF gdPage GD_IDX_group)
  let w := s.getF gdPage GD_IDX_word
  let att := match g.run with | some r => r.attached.foldl (fun m p => setBit m (p.1 - 16)) 0 | none => 0
  if w = 0 then g.key
  else if w ≤ 4 then bits g.mapped (32 * w - 1) (32 * w - 32)
  else if w ≤ 8 then bits att (32 * (w - 4) - 1) (32 * (w - 4) - 32)
  else if w = 9 then g.runs % 2 ^ 32
  else 0

/-- GD_IDX after a read of GD_DATA. -/
def gdIdxNext (s : State) : State :=
  if s.flag gdPage GD_IDX_auto_inc then
    let w := s.getF gdPage GD_IDX_word
    s.setF gdPage GD_IDX_word (if w = 9 then 0 else w + 1)
  else s

/-- The unlock admits a rink, and no job of another owner's image holds it (R464). -/
def debugAdmits (s : State) (n : Nat) : Bool :=
  s.flag scPage SC_DBG_unlocked && bit (s.getF scPage SC_DBG_rinks) n &&
    match (s.rink n).job with
    | some j => (match s.job j with | some x => x.owner == s.getF scPage SC_DBG_slot | none => true)
    | none => true

/-- What an agent reads of CR_DATA: the host sees tables 0 to 4 only while an unlock admits the rink (R201, R462). -/
def crDataSeen (s : State) (a : Agent) (k : Nat) : Nat :=
  if a == .host && decide (s.getF (cr k) CR_IDX_table ≤ 4) && !s.debugAdmits (k / 8) then 0 else s.crData k

/-- A body register that a read forms or changes: its value and the state after. -/
def bodyRead (s : State) (a : Agent) (k : Kind) (i page off : Nat) : Nat × State :=
  let w := s.word (page + off)
  match k with
  | .dv => if off = 0x48 then (s.link.irqLevel % 2 ^ 32, s) else if off = 0x4C then (bits s.link.irqLevel 33 32, s) else (w, s)
  | .sc =>
    if off = 0x58 then (s.sec.slots.zipIdx.foldl (fun v e => v + e.1.state % 4 * 4 ^ e.2) 0, s)
    else if 0x80 ≤ off ∧ off < 0x90 then (le s.deviceId (off - 0x80) 4, s)
    else if 0x90 ≤ off ∧ off < 0xB0 then (le s.sec.vroot (off - 0x90) 4, s)
    else if 0xB0 ≤ off ∧ off < 0x110 then (le (s.owner ((off - 0xB0) / 32)).hash ((off - 0xB0) % 32) 4, s)
    else if 0x110 ≤ off ∧ off < 0x14C then (le s.sec.idPub (off - 0x110) 4, s)
    else (w, s)
  | .ppSess => if off = 0x4C then (s.backoffLeft i, s) else if 0x80 ≤ off ∧ off < 0xA0 then (0, s) else (w, s)
  | .pw =>
    if 0x200 ≤ off ∧ off < 0x280 ∧ off % 0x20 = 4 then
      (setBits w 31 24 (min 255 (s.recentResets ((off - 0x200) / 0x20)).length), s) else (w, s)
  | .ck => if off = 0x60 then (setBits w 30 30 (b01 (bit w 31 && !s.domainRuns (bits w 21 16))), s) else (w, s)
  | .tb =>
    if off = 0x48 then
      let now := s.time.now
      (now / 2 ^ 32 % 2 ^ 32, (s.setF tbPage TB_NOW_HI_ns_hi (now / 2 ^ 64)).setF tbPage TB_NOW_FRAC_frac (now / 2 ^ 16))
    else (w, s)
  | .clRink => if off = 0x44 then (setBits w 15 8 (min 255 (s.dues i).length), s) else (w, s)
  | .clCore => if off = 0x44 then (setBits w 15 8 (min 255 (s.dues (16 + i)).length), s) else (w, s)
  | .gd => if off = 0x50 then (s.gdData, s.gdIdxNext) else (w, s)
  | .wx => if off = 0x5C then (s.waxData, s) else (w, s)
  | .cr =>
    if off = 0x44 then (s.seqStat i, s)
    else if 0x50 ≤ off ∧ off < 0x60 then (s.accStates i ((off - 0x50) / 4), s)
    else if off = 0x7C then (s.crDataSeen a i, s.crIdxNext i)
    else (w, s)
  | .rk =>
    if off = 0x48 then (s.rkSrc i, s)
    else if off = 0x4C then
      let pos := match (s.rink i).recs[(s.rink i).left]? with | some r => r.pos | none => 0
      (min 31 (s.queued i) * 2 ^ 16 + pos % 2 ^ 13, s)
    else (w, s)
  | _ => (w, s)

/-- A read of a counter register (R598). -/
def counterRead (s : State) (page off : Nat) : Nat × State :=
  let key := page + off
  let w := s.word key
  if 0xF20 ≤ off ∧ off < 0xFA0 then
    if off % 8 = 0 then (w, s.latchLo key (s.word (key + 4))) else (s.latchedHi key w, s)
  else (w, s)

/-- A 32-bit aligned read of a register of a page: who refuses it, in order, and else its value (R31, R35 to R37, R600, R608). -/
def regRead (s : State) (a : Agent) (page off : Nat) : Nat × State :=
  if !s.answers page then (0xFFFFFFFF, s.badAccess a (barOf page) ((page + off) % bar4) false)
  else
    match pageInfo page with
    | none => (0xFFFFFFFF, s)
    | some (k, i) =>
      if s.resetBusy page && 0x40 ≤ off then (0, s.pgErr a page off 0x05 false)
      else if s.clkOff page && 0x40 ≤ off then (0, s.pgErr a page off 0x06 false)
      else match capWord page k off, regRow k off with
        | some w, _ => (w, s)
        | none, none => if 0x30 ≤ off ∧ off < 0x40 then (0, s) else (0, s.pgErr a page off 0x07 false)
        | none, some _ =>
          if s.hostReadBars a page off false then (0, s)
          else if off = 0x10 then (s.pgStat page, s)
          else if off < 0x40 then (s.word (page + off), s)
          else if isCntOff k off then s.counterRead page off
          else s.bodyRead a k i page off

/-! ### Accesses of any size at any address (R30, R31, R37, R464, R503) -/

/-- The access reaches no page: the MSI-X structures and the debug window apart, nothing answers. -/
def offPage (key : Nat) : Bool := (pageInfo (key / 0x1000 * 0x1000)).isNone

/-- The rink that an address of the debug window names, by the 2 MiB that each of the 16 has of it (log 53). -/
def debugRink (key : Nat) : Nat := (key - 0x2000000) / 2 ^ 21

/-- An aligned 32-bit write. -/
def write32 (s : State) (a : Agent) (key v : Nat) : State :=
  let page := key / 0x1000 * 0x1000
  if inMsixTable key || inPba key then
    if !s.readyReached then s.badAccess a 1 (key % bar4) true
    else if inMsixTable key then s.msixWrite key v else s
  else if inDebug key then (if s.debugAdmits (debugRink key) then s else s.badAccess a 0 key true)
  else s.guardedWrite a page (key - page) v (regEffect a page (key - page))

/-- An aligned 32-bit read. -/
def read32 (s : State) (a : Agent) (key : Nat) : Nat × State :=
  let page := key / 0x1000 * 0x1000
  if inMsixTable key || inPba key then
    if !s.readyReached then (0xFFFFFFFF, s.badAccess a 1 (key % bar4) false)
    else if inMsixTable key then (s.word key, s) else (bits s.link.pba (8 * (key - msixPba) + 31) (8 * (key - msixPba)), s)
  else if inDebug key then
    if s.debugAdmits (debugRink key) then (if s.rkState (debugRink key) = 5 then (0, s) else s.draw)
    else (0xFFFFFFFF, s.badAccess a 0 key false)
  else s.regRead a page (key - page)

/-- An access of another size or unaligned: a page counts it with cause 0x04; elsewhere nothing answers (R31, R37, R503). -/
def oddAccess (s : State) (a : Agent) (key : Nat) (write : Bool) : State :=
  let page := key / 0x1000 * 0x1000
  if s.answers page then s.pgErr a page (key - page) 0x04 write else s.badAccess a (barOf key) (key % bar4) write

/-- The address of an access in the register space; none beyond the end of its BAR (R28, R500). -/
def regKey (bar : Bar) (addr : Nat) : Option Nat :=
  match bar with
  | .bar0 => if addr < 2 ^ 26 then some addr else none
  | .bar4 => if addr < 2 ^ 23 then some (bar4 + addr) else none

/-- A write of so many bytes; an aligned 64-bit write of the host is split, the lower address first (R30). -/
def writeAny (s : State) (a : Agent) (bar : Bar) (key bytes v : Nat) : State :=
  if a == .host && s.hostWaits then s.holdHost (.reg true bar (key % bar4) bytes v)
  else if bytes = 4 ∧ key % 4 = 0 then s.write32 a key (v % 2 ^ 32)
  else if bytes = 8 ∧ key % 8 = 0 ∧ a = .host then
    let s1 := s.write32 a key (v % 2 ^ 32)
    if s1.hostWaits then s1.holdHost (.reg true bar ((key + 4) % bar4) 4 (v / 2 ^ 32)) else s1.write32 a (key + 4) (v / 2 ^ 32)
  else s.oddAccess a key true

/-- A read of so many bytes; what a read of another size returns from a page is free (R30, R37). -/
def readAny (s : State) (a : Agent) (bar : Bar) (key bytes : Nat) : State :=
  if a == .host && s.hostWaits then s.holdHost (.reg false bar (key % bar4) bytes 0)
  else if bytes = 4 ∧ key % 4 = 0 then
    let (v, s1) := s.read32 a key
    { s1 with rdata := BitVec.ofNat 64 (v % 2 ^ 32) }
  else if bytes = 8 ∧ key % 8 = 0 ∧ a = .host then
    let (lo, s1) := s.read32 a key
    let (hi, s2) := s1.read32 a (key + 4)
    { s2 with rdata := BitVec.ofNat 64 (lo % 2 ^ 32 + hi % 2 ^ 32 * 2 ^ 32) }
  else
    let answered := s.answers (key / 0x1000 * 0x1000)
    let s1 := s.oddAccess a key false
    if answered then
      let (lo, s2) := s1.draw
      let (hi, s3) := s2.draw
      { s3 with rdata := BitVec.ofNat 64 (lo + hi * 2 ^ 32) }
    else { s1 with rdata := BitVec.allOnes 64 }

/-- An index register that the host owns (R506). -/
def hostIndex (k : Kind) (off : Nat) : Bool :=
  match k with
  | .pxFault => off == 0x4C
  | .pxCmd => off == 0x54 || off == 0x60
  | .pxVr => off == 0x50
  | _ => false

/-! ### The end of an exit (R570, R572) -/

/-- A host request that waited is served. -/
def serveHeld (s : State) (r : HeldReq) : State :=
  match r with
  | .reg true bar addr bytes v => match regKey bar addr with | some key => s.writeAny .host bar key bytes v | none => s
  | .reg false bar addr bytes _ => match regKey bar addr with | some key => s.readAny .host bar key bytes | none => s
  | .bar2 write off data len ue => if s.hostWaits then s.holdHost r else s.bar2Now write off data len ue
  | .d3 hot => if s.hostWaits then s.holdHost r else s.functionD3 hot

/-- The exit is complete; the requests that waited are served in order, or start the next exit. -/
def exitDone (s : State) : State :=
  let s1 := s.psExited
  if s1.psState = 4 ∨ s1.psState = 5 then (if s1.power.heldReqs.isEmpty then s1 else s1.wake (2 ^ 16))
  else if s1.psState ≤ 3 then
    s1.power.heldReqs.foldl serveHeld { s1 with power := { s1.power with heldReqs := [] } }
  else s1

end State

/-! ### The commands -/

/-- SOFT_RESET (R35): a write of PG_CTRL with soft_reset set. -/
def execSoftReset (a : Agent) (page : Nat) (v : Word) (s : State) : Host.Outcome State Fault Refusal :=
  (s.guardedWrite a page 0xC (setBit v.toNat 1) (State.pgCtrlWrite a page)).done
/-- REGISTER_WRITE (R11). -/
def execRegisterWrite (a : Agent) (bar : Bar) (addr bytes : Nat) (v : BitVec 64) (s : State) : Host.Outcome State Fault Refusal :=
  match State.regKey bar addr with
  | some key => (s.writeAny a bar key bytes v.toNat).done
  | none => .fault .addressOutsideBar
/-- REGISTER_READ (R537). -/
def execRegisterRead (a : Agent) (bar : Bar) (addr bytes : Nat) (s : State) : Host.Outcome State Fault Refusal :=
  match State.regKey bar addr with
  | some key => (s.readAny a bar key bytes).done
  | none => .fault .addressOutsideBar
/-- UNANSWERED_ACCESS (R31): an access to an address where no page answers; one that a page answers is another row's. -/
def execUnansweredAccess (a : Agent) (bar : Bar) (addr : Nat) (write : Bool) (s : State) : Host.Outcome State Fault Refusal :=
  match State.regKey bar addr with
  | none => .fault .addressOutsideBar
  | some key =>
    if s.answers (key / 0x1000 * 0x1000) then s.done
    else if write then (s.writeAny a bar (key / 4 * 4) 4 0).done
    else (s.readAny a bar (key / 4 * 4) 4).done
/-- PG_IRQ_STAT_CLEAR (R42). -/
def execPgIrqStatClear (a : Agent) (page : Nat) (v hwSet : Word) (s : State) : Host.Outcome State Fault Refusal :=
  (s.guardedWrite a page 0x14 v.toNat (State.irqStatWrite a page hwSet.toNat)).done
/-- PG_IRQ_EN_WRITE (R46). -/
def execPgIrqEnWrite (a : Agent) (page : Nat) (v : Word) (s : State) : Host.Outcome State Fault Refusal :=
  (s.guardedWrite a page 0x18 v.toNat (State.irqEnWrite a page)).done
/-- PG_IRQ_FORCE_WRITE (R43). -/
def execPgIrqForceWrite (a : Agent) (page : Nat) (v : Word) (s : State) : Host.Outcome State Fault Refusal :=
  (s.guardedWrite a page 0x1C v.toNat (State.irqForceWrite page)).done
/-- PG_ERR_CNT_CLEAR (R38): a write with clear set; `cause` is that of an increment of the same cycle by the other agent, 0 for none. -/
def execPgErrCntClear (a : Agent) (page : Nat) (v : Word) (cause : BitVec 8) (off : BitVec 12) (s : State) :
    Host.Outcome State Fault Refusal :=
  (s.guardedWrite a page 0x20 (setBit v.toNat 31) fun v s =>
    let s1 := State.errCntWrite page v s
    if 1 ≤ cause.toNat ∧ cause.toNat ≤ 8 then
      s1.pgErr (if a == .host then .puppeteer else .host) page off.toNat cause.toNat true else s1).done
/-- PG_LOCK_WRITE (R40). -/
def execPgLockWrite (a : Agent) (page : Nat) (v : Word) (s : State) : Host.Outcome State Fault Refusal :=
  (s.guardedWrite a page 0x28 v.toNat (State.lockWrite a page)).done
/-- MSIX_UNMASK (R46). -/
def execMsixUnmask (vec : Fin 128) (s : State) : Host.Outcome State Fault Refusal :=
  (s.writeAny .host .bar4 (msixTable + 16 * vec + 12) 4 0).done
/-- STREAM_ENABLE (R62): a write of PG_CTRL of a stream page with enable set. -/
def execStreamEnable (a : Agent) (k : Fin 32) (v : Word) (s : State) : Host.Outcome State Fault Refusal :=
  (s.guardedWrite a (feStrm k) 0xC (setBit v.toNat 0) (State.pgCtrlWrite a (feStrm k))).done
/-- STREAM_DISABLE (R65): a write of PG_CTRL of a stream page with enable clear. -/
def execStreamDisable (a : Agent) (k : Fin 32) (v : Word) (s : State) : Host.Outcome State Fault Refusal :=
  (s.guardedWrite a (feStrm k) 0xC (clrBit v.toNat 0) (State.pgCtrlWrite a (feStrm k))).done
/-- RING_INDEX_WRITE (R506): a write of an index that the host owns; another register is another row's. -/
def execRingIndexWrite (a : Agent) (page : Nat) (off : BitVec 12) (v : Word) (s : State) : Host.Outcome State Fault Refusal :=
  match pageInfo page with
  | none => s.done
  | some (k, _) =>
    if State.hostIndex k off.toNat then (s.guardedWrite a page off.toNat v.toNat (State.regEffect a page off.toNat)).done else s.done
/-- POWER_STATE_EXIT_DONE (R572). -/
def execPowerStateExitDone (s : State) : Host.Outcome State Fault Refusal := s.eng s.exitDone

end Sys2Proof.Machine
end

