-- ==== Sys2Proof/Machine/Dispatch.lean ====
section
/-! DEFINITION. One arm per command: each calls its meaning. -/

namespace Sys2Proof.Machine

/-- The effect of a command on everything but the queue. -/
def exec (i : Instr) (s : State) : Host.Outcome State Fault Refusal :=
  match i with
  | .deviceReset lowNs => Sys2Proof.Machine.execDeviceReset lowNs s
  | .bootImagesChecked => Sys2Proof.Machine.execBootImagesChecked s
  | .bringUpReady => Sys2Proof.Machine.execBringUpReady s
  | .svnFloorRaise => Sys2Proof.Machine.execSvnFloorRaise s
  | .softReset a page v => Sys2Proof.Machine.execSoftReset a page v s
  | .registerWrite a bar addr bytes v => Sys2Proof.Machine.execRegisterWrite a bar addr bytes v s
  | .registerRead a bar addr bytes => Sys2Proof.Machine.execRegisterRead a bar addr bytes s
  | .unansweredAccess a bar addr write => Sys2Proof.Machine.execUnansweredAccess a bar addr write s
  | .pgIrqStatClear a page v hwSet => Sys2Proof.Machine.execPgIrqStatClear a page v hwSet s
  | .pgIrqEnWrite a page v => Sys2Proof.Machine.execPgIrqEnWrite a page v s
  | .pgIrqForceWrite a page v => Sys2Proof.Machine.execPgIrqForceWrite a page v s
  | .pgErrCntClear a page v cause off => Sys2Proof.Machine.execPgErrCntClear a page v cause off s
  | .pgLockWrite a page v => Sys2Proof.Machine.execPgLockWrite a page v s
  | .msixUnmask vec => Sys2Proof.Machine.execMsixUnmask vec s
  | .streamEnable a k v => Sys2Proof.Machine.execStreamEnable a k v s
  | .streamDisable a k v => Sys2Proof.Machine.execStreamDisable a k v s
  | .longPacket p vc dt payload hdrBad crcBad fullAt => Sys2Proof.Machine.execLongPacket p vc dt payload hdrBad crcBad fullAt s
  | .lineStart p vc num hdrBad => Sys2Proof.Machine.execLineStart p vc num hdrBad s
  | .lineEnd p hdrBad => Sys2Proof.Machine.execLineEnd p hdrBad s
  | .frameStart p vc hdrBad => Sys2Proof.Machine.execFrameStart p vc hdrBad s
  | .frameEnd p vc hdrBad => Sys2Proof.Machine.execFrameEnd p vc hdrBad s
  | .dphySync p lane => Sys2Proof.Machine.execDphySync p lane s
  | .closeDeadline k => Sys2Proof.Machine.execCloseDeadline k s
  | .stripeRelease j k seq => Sys2Proof.Machine.execStripeRelease j k seq s
  | .tableLoad a v => Sys2Proof.Machine.execTableLoad a v s
  | .tableLoadComplete badUnit => Sys2Proof.Machine.execTableLoadComplete badUnit s
  | .seqRun a k v => Sys2Proof.Machine.execSeqRun a k v s
  | .seqStep a k v => Sys2Proof.Machine.execSeqStep a k v s
  | .clrCnt a k v => Sys2Proof.Machine.execClrCnt a k v s
  | .crDataWrite a k v => Sys2Proof.Machine.execCrDataWrite a k v s
  | .resInject a k v => Sys2Proof.Machine.execResInject a k v s
  | .nop k => Sys2Proof.Machine.execNop k s
  | .op k => Sys2Proof.Machine.execOp k s
  | .sem k => Sys2Proof.Machine.execSem k s
  | .fence k => Sys2Proof.Machine.execFence k s
  | .loop k => Sys2Proof.Machine.execLoop k s
  | .cellEnd k => Sys2Proof.Machine.execCellEnd k s
  | .halt k => Sys2Proof.Machine.execHalt k s
  | .t0TileIssue k => Sys2Proof.Machine.execT0TileIssue k s
  | .t0TileComplete k flips => Sys2Proof.Machine.execT0TileComplete k flips s
  | .accTileDrain k => Sys2Proof.Machine.execAccTileDrain k s
  | .opComplete k => Sys2Proof.Machine.execOpComplete k s
  | .groupLoaded n => Sys2Proof.Machine.execGroupLoaded n s
  | .rinkDrainDone n => Sys2Proof.Machine.execRinkDrainDone n s
  | .inputCopy n => Sys2Proof.Machine.execInputCopy n s
  | .carryMove n => Sys2Proof.Machine.execCarryMove n s
  | .haloSend n => Sys2Proof.Machine.execHaloSend n s
  | .haloArrival n => Sys2Proof.Machine.execHaloArrival n s
  | .haloCreditReturn n entry right => Sys2Proof.Machine.execHaloCreditReturn n entry right s
  | .haloTimeout n => Sys2Proof.Machine.execHaloTimeout n s
  | .cellRelease j => Sys2Proof.Machine.execCellRelease j s
  | .setSkipped j => Sys2Proof.Machine.execSetSkipped j s
  | .cellCompletionReport j n => Sys2Proof.Machine.execCellCompletionReport j n s
  | .cellGate j => Sys2Proof.Machine.execCellGate j s
  | .verdictEmit j => Sys2Proof.Machine.execVerdictEmit j s
  | .planSwitch j => Sys2Proof.Machine.execPlanSwitch j s
  | .forcePlan a j v => Sys2Proof.Machine.execForcePlan a j v s
  | .slalomClear a j v => Sys2Proof.Machine.execSlalomClear a j v s
  | .chairliftFetchStart idx => Sys2Proof.Machine.execChairliftFetchStart idx s
  | .chairliftTransferDone idx failed => Sys2Proof.Machine.execChairliftTransferDone idx failed s
  | .gondolaTileCredit g recv => Sys2Proof.Machine.execGondolaTileCredit g recv s
  | .gondolaDetach g recv => Sys2Proof.Machine.execGondolaDetach g recv s
  | .dmaGo a c v => Sys2Proof.Machine.execDmaGo a c v s
  | .dmaAbort a c v => Sys2Proof.Machine.execDmaAbort a c v s
  | .dmaSlotStart c => Sys2Proof.Machine.execDmaSlotStart c s
  | .dmaSlotDone c => Sys2Proof.Machine.execDmaSlotDone c s
  | .dmaSlotBad c err bytesDone => Sys2Proof.Machine.execDmaSlotBad c err bytesDone s
  | .windowOpen a w v => Sys2Proof.Machine.execWindowOpen a w v s
  | .windowClose a w v => Sys2Proof.Machine.execWindowClose a w v s
  | .windowCloseDone w => Sys2Proof.Machine.execWindowCloseDone w s
  | .windowWrite node dma addr data => Sys2Proof.Machine.execWindowWrite node dma addr data s
  | .windowArrival w => Sys2Proof.Machine.execWindowArrival w s
  | .windowTargetWrite a w v => Sys2Proof.Machine.execWindowTargetWrite a w v s
  | .adaptLabel ring => Sys2Proof.Machine.execAdaptLabel ring s
  | .adaptSwap ring => Sys2Proof.Machine.execAdaptSwap ring s
  | .adaptPause ring => Sys2Proof.Machine.execAdaptPause ring s
  | .adaptResume ring => Sys2Proof.Machine.execAdaptResume ring s
  | .adaptRollback ring => Sys2Proof.Machine.execAdaptRollback ring s
  | .adaptStep j => Sys2Proof.Machine.execAdaptStep j s
  | .adaptStepDone j => Sys2Proof.Machine.execAdaptStepDone j s
  | .weightSwap j => Sys2Proof.Machine.execWeightSwap j s
  | .gddr6Training ok => Sys2Proof.Machine.execGddr6Training ok s
  | .gddr6InitDone => Sys2Proof.Machine.execGddr6InitDone s
  | .gddr6Request agent write addr data len errBits edcErrors => Sys2Proof.Machine.execGddr6Request agent write addr data len errBits edcErrors s
  | .gddr6Retrain a c v => Sys2Proof.Machine.execGddr6Retrain a c v s
  | .gddr6RetrainDone c ok => Sys2Proof.Machine.execGddr6RetrainDone c ok s
  | .gddr6PatrolRead c block errBits => Sys2Proof.Machine.execGddr6PatrolRead c block errBits s
  | .gddr6Refresh c => Sys2Proof.Machine.execGddr6Refresh c s
  | .gddr6TemperatureRead c tempC => Sys2Proof.Machine.execGddr6TemperatureRead c tempC s
  | .bar2Access write off data len uncorrectable => Sys2Proof.Machine.execBar2Access write off data len uncorrectable s
  | .sramPatrolRead place errBits => Sys2Proof.Machine.execSramPatrolRead place errBits s
  | .sramUncorrectable place => Sys2Proof.Machine.execSramUncorrectable place s
  | .sharedHeaderError corrected => Sys2Proof.Machine.execSharedHeaderError corrected s
  | .ctrlParity d page segment => Sys2Proof.Machine.execCtrlParity d page segment s
  | .domainWatchdog d => Sys2Proof.Machine.execDomainWatchdog d s
  | .fenceCmd a d v => Sys2Proof.Machine.execFenceCmd a d v s
  | .hotResetCmd a d v => Sys2Proof.Machine.execHotResetCmd a d v s
  | .autoReset d => Sys2Proof.Machine.execAutoReset d s
  | .hotResetDone d => Sys2Proof.Machine.execHotResetDone d s
  | .hotResetFail d code => Sys2Proof.Machine.execHotResetFail d code s
  | .eventWindowEnd d => Sys2Proof.Machine.execEventWindowEnd d s
  | .nonce ring => Sys2Proof.Machine.execNonce ring s
  | .ownerInstall ring => Sys2Proof.Machine.execOwnerInstall ring s
  | .ownerRevoke ring => Sys2Proof.Machine.execOwnerRevoke ring s
  | .sessionKeySet ring => Sys2Proof.Machine.execSessionKeySet ring s
  | .policySet ring => Sys2Proof.Machine.execPolicySet ring s
  | .quote ring => Sys2Proof.Machine.execQuote ring s
  | .identitySignature journalOk => Sys2Proof.Machine.execIdentitySignature journalOk s
  | .debugUnlock ring => Sys2Proof.Machine.execDebugUnlock ring s
  | .debugLock ring => Sys2Proof.Machine.execDebugLock ring s
  | .debugUnlockExpiry => Sys2Proof.Machine.execDebugUnlockExpiry s
  | .sessionOpen a idx v => Sys2Proof.Machine.execSessionOpen a idx v s
  | .sessionProve a idx v => Sys2Proof.Machine.execSessionProve a idx v s
  | .sessionClose a idx v => Sys2Proof.Machine.execSessionClose a idx v s
  | .sessionChallengeTimeout idx => Sys2Proof.Machine.execSessionChallengeTimeout idx s
  | .sessionBackoffEnd idx => Sys2Proof.Machine.execSessionBackoffEnd idx s
  | .sqDoorbell a ring v => Sys2Proof.Machine.execSqDoorbell a ring v s
  | .frameReadFail ring => Sys2Proof.Machine.execFrameReadFail ring s
  | .scrubComplete j => Sys2Proof.Machine.execScrubComplete j s
  | .storeStatus ring => Sys2Proof.Machine.execStoreStatus ring s
  | .modelStore ring => Sys2Proof.Machine.execModelStore ring s
  | .modelErase ring => Sys2Proof.Machine.execModelErase ring s
  | .archiveRead ring nand => Sys2Proof.Machine.execArchiveRead ring nand s
  | .logRead ring => Sys2Proof.Machine.execLogRead ring s
  | .fwWrite ring => Sys2Proof.Machine.execFwWrite ring s
  | .storeMount ok => Sys2Proof.Machine.execStoreMount ok s
  | .storeFormat factoryBad => Sys2Proof.Machine.execStoreFormat factoryBad s
  | .archiveWrite nand => Sys2Proof.Machine.execArchiveWrite nand s
  | .blockRefresh nand => Sys2Proof.Machine.execBlockRefresh nand s
  | .wearLevelCopy => Sys2Proof.Machine.execWearLevelCopy s
  | .disturbScan block nand => Sys2Proof.Machine.execDisturbScan block nand s
  | .retentionScan block nand => Sys2Proof.Machine.execRetentionScan block nand s
  | .ringIndexWrite a page off v => Sys2Proof.Machine.execRingIndexWrite a page off v s
  | .vringTrailer ring => Sys2Proof.Machine.execVringTrailer ring s
  | .vringConfig a r v => Sys2Proof.Machine.execVringConfig a r v s
  | .commandRingConfig a ring v => Sys2Proof.Machine.execCommandRingConfig a ring v s
  | .faultRingConfig a v => Sys2Proof.Machine.execFaultRingConfig a v s
  | .linkDown => Sys2Proof.Machine.execLinkDown s
  | .linkUp gen width => Sys2Proof.Machine.execLinkUp gen width s
  | .functionReset perst => Sys2Proof.Machine.execFunctionReset perst s
  | .poisonedWrite => Sys2Proof.Machine.execPoisonedWrite s
  | .tzPortEnable a p v => Sys2Proof.Machine.execTzPortEnable a p v s
  | .tzRetrain a p v => Sys2Proof.Machine.execTzRetrain a p v s
  | .tzTrainingDone p t => Sys2Proof.Machine.execTzTrainingDone p t s
  | .tzTrainingTimeout p => Sys2Proof.Machine.execTzTrainingTimeout p s
  | .flitReceive p flit crcOk => Sys2Proof.Machine.execFlitReceive p flit crcOk s
  | .flitReplay p nak => Sys2Proof.Machine.execFlitReplay p nak s
  | .tzLinkSilent p => Sys2Proof.Machine.execTzLinkSilent p s
  | .write p => Sys2Proof.Machine.execWrite p s
  | .writeRsp p => Sys2Proof.Machine.execWriteRsp p s
  | .halo p => Sys2Proof.Machine.execHalo p s
  | .haloCredit p => Sys2Proof.Machine.execHaloCredit p s
  | .timebaseSet a v => Sys2Proof.Machine.execTimebaseSet a v s
  | .ppsEnable a v => Sys2Proof.Machine.execPpsEnable a v s
  | .ppsEdge falling withLoad => Sys2Proof.Machine.execPpsEdge falling withLoad s
  | .ppsLost => Sys2Proof.Machine.execPpsLost s
  | .encoderEdge n levelA levelB => Sys2Proof.Machine.execEncoderEdge n levelA levelB s
  | .encoderPosWrite a n v => Sys2Proof.Machine.execEncoderPosWrite a n v s
  | .markerArm a m v => Sys2Proof.Machine.execMarkerArm a m v s
  | .markerDue m => Sys2Proof.Machine.execMarkerDue m s
  | .markerPulseEnd m => Sys2Proof.Machine.execMarkerPulseEnd m s
  | .gpioEdge pin level => Sys2Proof.Machine.execGpioEdge pin level s
  | .pllUnlock idx => Sys2Proof.Machine.execPllUnlock idx s
  | .oscTrim cycles => Sys2Proof.Machine.execOscTrim cycles s
  | .clkoutSwitch a v => Sys2Proof.Machine.execClkoutSwitch a v s
  | .powerStateRequest a v => Sys2Proof.Machine.execPowerStateRequest a v s
  | .powerStateEntered => Sys2Proof.Machine.execPowerStateEntered s
  | .wakeEvent src => Sys2Proof.Machine.execWakeEvent src s
  | .powerStateExitDone => Sys2Proof.Machine.execPowerStateExitDone s
  | .glideEntry => Sys2Proof.Machine.execGlideEntry s
  | .thermalCompare => Sys2Proof.Machine.execThermalCompare s
  | .thermalTrip => Sys2Proof.Machine.execThermalTrip s
  | .railUndervoltage rail => Sys2Proof.Machine.execRailUndervoltage rail s
  | .pwrOkFall => Sys2Proof.Machine.execPwrOkFall s
  | .pwrOkRise => Sys2Proof.Machine.execPwrOkRise s
  | .pwrOkTimeout => Sys2Proof.Machine.execPwrOkTimeout s
  | .functionD3hot d3 => Sys2Proof.Machine.execFunctionD3hot d3 s
  | .waxTempCompare => Sys2Proof.Machine.execWaxTempCompare s
  | .waxPeriod => Sys2Proof.Machine.execWaxPeriod s
  | .waxRunCmd a v => Sys2Proof.Machine.execWaxRunCmd a v s
  | .waxRunComplete tj measured => Sys2Proof.Machine.execWaxRunComplete tj measured s
  | .waxSetApply unit => Sys2Proof.Machine.execWaxSetApply unit s
  | .monitorConversion idx value => Sys2Proof.Machine.execMonitorConversion idx value s
  | .counterFreeze a v => Sys2Proof.Machine.execCounterFreeze a v s
  | .counterThaw a v => Sys2Proof.Machine.execCounterThaw a v s
  | .counterSnapshot a v => Sys2Proof.Machine.execCounterSnapshot a v s
  | .counterCollect a v => Sys2Proof.Machine.execCounterCollect a v s
  | .collectionComplete => Sys2Proof.Machine.execCollectionComplete s
  | .counterDump ring => Sys2Proof.Machine.execCounterDump ring s
  | .counterLoad a page idx v => Sys2Proof.Machine.execCounterLoad a page idx v s
  | .counterWrap page idx => Sys2Proof.Machine.execCounterWrap page idx s
  | .bwMonitorConfig a k v => Sys2Proof.Machine.execBwMonitorConfig a k v s
  | .bwWindowEnd k => Sys2Proof.Machine.execBwWindowEnd k s
  | .memPolicy ring => Sys2Proof.Machine.execMemPolicy ring s
  | .jobLoad ring => Sys2Proof.Machine.execJobLoad ring s
  | .jobStop ring => Sys2Proof.Machine.execJobStop ring s

end Sys2Proof.Machine
end

