-- ==== Sys2Proof/Safety.lean ====
section
/-! DEFINITION. What a safe state and a safe run are, and the words in which statements say what a command leaves as it is. -/

namespace Sys2Proof.Safety

open Sys2Proof.Machine

/-- Every memory and the register table are in canonical form. -/
def Canonical (s : State) : Prop :=
  Memory.wf s.host = true ∧ Memory.wf s.gddr = true ∧ Memory.wf s.stripe = true ∧ Memory.wf s.spad = true ∧
    tabWf regReset s.regs = true

/-- The vectors' levels are those that the pages assert (R44, R45). -/
def Settled (s : State) : Prop := s.link.irqLevel = s.levels

/-- The step answers a next state. -/
def Completes (s : State) : Prop := ∃ t, step s = .next t

/-- How every command leaves the state that its own effect made: activity noted (R567), vectors brought up to date (R46). -/
def ended (s : State) : State := s.watch.settle

/-- The address of PW_PS_STAT, whose state field work in Glide returns to Schuss (R567). -/
abbrev psStat : Nat := pwPage + 0x44

/-- The state without its register words: nor the record of WO writes, the samples due, the vectors' levels with their messages, and the
time of the last activity. A command of which two states have the same rest has touched no memory, queue or engine. -/
def rest (s : State) : State :=
  { s with
    regs := [], woDone := [], cnt := { s.cnt with samplePend := [] }, power := { s.power with idleSince := 0 }
    link := { s.link with irqLevel := 0, pba := 0, msiSent := [] } }

/-- The register words at the addresses outside a set read as before, PW_PS_STAT apart. -/
def WordsKept (out : Nat → Prop) (s t : State) : Prop := ∀ k, ¬ out k → k ≠ psStat → t.word k = s.word k

/-- The words of a page that an event on it may change: PG_STAT with its set_evt, PG_IRQ_STAT, and the counters that select the
event (R43, R598). -/
def eventWords (page k : Nat) : Prop :=
  k = page + 0x10 ∨ k = page + 0x14 ∨ (page + 0xF20 ≤ k ∧ k < page + 0xFA4)

/-- The words of a page that an access error on it may change: PG_ERR_CNT and PG_ERR_ADDR, and those of its event (R37). -/
def errorWords (page k : Nat) : Prop := k = page + 0x20 ∨ k = page + 0x24 ∨ eventWords page k

/-- The write is admitted to a register of a page: nothing of R31, R35 to R37, R40, R570, R600 and R608 stands against it. -/
def Admitted (s : State) (a : Agent) (page off : Nat) : Prop :=
  (!(a == .host && s.hostWaits) && s.answers page &&
    match pageInfo page with
    | none => false
    | some (k, _) =>
      !(decide (0x40 ≤ off) && (s.resetBusy page || s.clkOff page)) && (capWord page k off).isNone &&
        match regRow k off with
        | none => false
        | some r => !s.hostReadBars a page off true && !s.lockRefuses a page off r) = true

/-- The commands that are the 9160's own: steps of its engines and sequencers, commands that the Puppeteer takes from a ring, and events
that reach an engine through a pin or a peer. A halted device does none of them (R25, R610; log 7). The others are accesses of an agent,
packets on the CSI-2 ports, and what happens to the link, the function or the device. -/
def own : Instr → Bool
  | .bringUpReady .. | .svnFloorRaise .. | .closeDeadline .. | .stripeRelease .. | .tableLoadComplete .. | .nop .. | .op ..
  | .sem .. | .fence .. | .loop .. | .cellEnd .. | .halt .. | .t0TileIssue .. | .t0TileComplete .. | .accTileDrain ..
  | .opComplete .. | .groupLoaded .. | .rinkDrainDone .. | .inputCopy .. | .carryMove .. | .haloSend .. | .haloArrival ..
  | .haloCreditReturn .. | .haloTimeout .. | .cellRelease .. | .setSkipped .. | .cellCompletionReport .. | .cellGate ..
  | .verdictEmit .. | .planSwitch .. | .chairliftFetchStart .. | .chairliftTransferDone .. | .gondolaTileCredit ..
  | .gondolaDetach .. | .dmaSlotStart .. | .dmaSlotDone .. | .dmaSlotBad .. | .windowCloseDone .. | .windowWrite ..
  | .windowArrival .. | .adaptLabel .. | .adaptSwap .. | .adaptPause .. | .adaptResume .. | .adaptRollback ..
  | .adaptStep .. | .adaptStepDone .. | .weightSwap .. | .gddr6Training .. | .gddr6InitDone .. | .gddr6Request ..
  | .gddr6RetrainDone .. | .gddr6PatrolRead .. | .gddr6Refresh .. | .gddr6TemperatureRead .. | .sramPatrolRead ..
  | .sramUncorrectable .. | .sharedHeaderError .. | .ctrlParity .. | .domainWatchdog .. | .autoReset .. | .hotResetDone ..
  | .hotResetFail .. | .eventWindowEnd .. | .nonce .. | .ownerInstall .. | .ownerRevoke .. | .sessionKeySet ..
  | .policySet .. | .quote .. | .identitySignature .. | .debugUnlock .. | .debugLock .. | .debugUnlockExpiry ..
  | .sessionChallengeTimeout .. | .sessionBackoffEnd .. | .frameReadFail .. | .scrubComplete .. | .storeStatus ..
  | .modelStore .. | .modelErase .. | .archiveRead .. | .logRead .. | .fwWrite .. | .storeMount .. | .storeFormat ..
  | .archiveWrite .. | .blockRefresh .. | .wearLevelCopy .. | .disturbScan .. | .retentionScan .. | .vringTrailer ..
  | .tzTrainingDone .. | .tzTrainingTimeout .. | .flitReceive .. | .flitReplay .. | .tzLinkSilent .. | .write ..
  | .writeRsp .. | .halo .. | .haloCredit .. | .ppsEdge .. | .ppsLost .. | .encoderEdge .. | .markerDue ..
  | .markerPulseEnd .. | .gpioEdge .. | .pllUnlock .. | .oscTrim .. | .powerStateEntered .. | .wakeEvent ..
  | .powerStateExitDone .. | .glideEntry .. | .thermalCompare .. | .thermalTrip .. | .railUndervoltage .. | .pwrOkFall ..
  | .pwrOkRise .. | .pwrOkTimeout .. | .waxTempCompare .. | .waxPeriod .. | .waxRunComplete .. | .waxSetApply ..
  | .monitorConversion .. | .collectionComplete .. | .counterDump .. | .counterWrap .. | .bwWindowEnd .. | .memPolicy ..
  | .jobLoad .. | .jobStop .. => true
  | .deviceReset .. | .bootImagesChecked .. | .softReset .. | .registerWrite .. | .registerRead .. | .unansweredAccess ..
  | .pgIrqStatClear .. | .pgIrqEnWrite .. | .pgIrqForceWrite .. | .pgErrCntClear .. | .pgLockWrite .. | .msixUnmask ..
  | .streamEnable .. | .streamDisable .. | .longPacket .. | .lineStart .. | .lineEnd .. | .frameStart .. | .frameEnd ..
  | .dphySync .. | .tableLoad .. | .seqRun .. | .seqStep .. | .clrCnt .. | .crDataWrite .. | .resInject .. | .forcePlan ..
  | .slalomClear .. | .dmaGo .. | .dmaAbort .. | .windowOpen .. | .windowClose .. | .windowTargetWrite .. | .gddr6Retrain ..
  | .bar2Access .. | .fenceCmd .. | .hotResetCmd .. | .sessionOpen .. | .sessionProve .. | .sessionClose .. | .sqDoorbell ..
  | .ringIndexWrite .. | .vringConfig .. | .commandRingConfig .. | .faultRingConfig .. | .linkDown .. | .linkUp ..
  | .functionReset .. | .poisonedWrite .. | .tzPortEnable .. | .tzRetrain .. | .timebaseSet .. | .ppsEnable ..
  | .encoderPosWrite .. | .markerArm .. | .clkoutSwitch .. | .powerStateRequest .. | .functionD3hot .. | .waxRunCmd ..
  | .counterFreeze .. | .counterThaw .. | .counterSnapshot .. | .counterCollect .. | .counterLoad .. | .bwMonitorConfig .. => false

/-- The command names an address beyond the end of its BAR (R28, R500). -/
def beyondBar (c : Instr) (s : State) : Bool :=
  match c with
  | .registerWrite _ bar addr _ _ => (State.regKey bar addr).isNone
  | .registerRead _ bar addr _ => (State.regKey bar addr).isNone
  | .unansweredAccess _ bar addr _ => (State.regKey bar addr).isNone
  | .bar2Access write off data len _ => decide (2 ^ s.link.bar2Log2 < off + (if write then data.length else len))
  | _ => false

/-- The frame at the head of command ring r holds command `op` and passes the tests of R451: the state once the Puppeteer has taken it,
and the frame. -/
def accepted (s : State) (r op : Nat) : Option (State × List Byte) :=
  match s.frameAt r with
  | none => none
  | some f =>
    if frameOp f = op ∧ s.frameTest r f = 0 then
      some (if frameSess f = 0xFF then (s.takeFrame r f [], f)
        else ((s.set64 (ppSess r) PP_SESS_SEQ_LO_seq_lo PP_SESS_SEQ_HI_seq_hi (frameSeq f)).takeFrame r f (s.sess r).key, f))
    else none

/-- Ring r holds one frame that the Puppeteer has not taken. -/
def oneFrame (s : State) (r : Nat) : Prop :=
  s.getF (pxCmd r) PX_SQ_TAIL_tail = (s.getF (pxCmd r) PX_SQ_HEAD_head + 1) % 2 ^ 16

/-- The next slot of the completion ring of ring r holds the reply to frame f (R450, R509, R510). -/
def Answered (s t : State) (r : Nat) (f : List Byte) (status : Nat) (body : List Byte) : Prop :=
  let p := pxCmd r
  let reply := replyFrame f (if frameSess f = 0xFF then [] else (s.sess r).key) status body
  let slot := s.get64 p PX_CQ_BASE_LO_addr_lo PX_CQ_BASE_HI_addr_hi / 4096 * 4096 +
    s.getF p PX_CQ_TAIL_tail % 2 ^ s.getF p PX_CR_CFG_cq_log2 * 4096
  memRead t.host slot reply.length = reply ∧ t.getF p PX_CQ_TAIL_tail = (s.getF p PX_CQ_TAIL_tail + 1) % 2 ^ 16 ∧
    t.getF p PX_SQ_HEAD_head = s.getF p PX_SQ_TAIL_tail

/-- The memories inside the device read as before. -/
def MemoriesKept (s t : State) : Prop := t.gddr = s.gddr ∧ t.stripe = s.stripe ∧ t.spad = s.spad

end Sys2Proof.Safety
end

