-- ==== Sys2Proof/WellFormed.lean ====
section
/-! DEFINITION. Which commands are well formed: operands that name something the spec gives the 9160. The types of Syntax bound most
operands; what they leave is checked here. The meanings are total: an ill-formed command has no effect of its own or faults by name. -/

namespace Sys2Proof

open Sys2Proof.Machine

/-- The page exists (R28, R29, R503, R504). -/
def isPage (page : Nat) : Bool := (pageInfo page).isSome

/-- The address lies in the BAR (R28, R500). -/
def inBar (bar : Bar) (addr : Nat) : Bool := (State.regKey bar addr).isSome

/-- A size that an access of a processor has; all but 4, and 8 of the host, are answered with cause 0x04 (R30, R37). -/
def isSize (bytes : Nat) : Bool := [1, 2, 4, 8].contains bytes

/-- The place is an SRAM of the device: stripe memory has 64 MiB, and the shared SRAMs are those of the 183 agents. -/
def SramPlace.wf : SramPlace → Bool
  | .core _ _ => true
  | .spad _ => true
  | .stripe addr => decide (addr < 2 ^ 26)
  | .puppeteer => true
  | .shared agent => decide (agent < 183)

/-- The command is well formed. -/
def Instr.wf : Instr → Bool
  -- A page of the register map (R28, R503).
  | .softReset _ page _ | .pgIrqStatClear _ page _ _ | .pgIrqEnWrite _ page _ | .pgIrqForceWrite _ page _
  | .pgLockWrite _ page _ => isPage page
  -- A cause of R37, or 0 for no increment in the same cycle.
  | .pgErrCntClear _ page _ cause off => isPage page && decide (cause.toNat ≤ 8) && decide (off.toNat % 4 = 0)
  -- An address of the BAR and a size an access has (R28, R30, R500).
  | .registerWrite _ bar addr bytes _ => inBar bar addr && isSize bytes
  | .registerRead _ bar addr bytes => inBar bar addr && isSize bytes
  | .unansweredAccess _ bar addr _ => inBar bar addr
  -- A packet's word count has 16 bits; the FIFO can refuse only a byte that it has (R57, R58, R641).
  | .longPacket _ _ _ payload _ _ fullAt =>
    decide (payload.length < 2 ^ 16) && (match fullAt with | some n => decide (n ≤ payload.length) | none => true)
  -- A unit of the copy: FE_TLD_CTRL.len has 14 bits (R104).
  | .tableLoadComplete badUnit => match badUnit with | some u => decide (u < 2 ^ 14) | none => true
  -- A pass has 32 positions and 48 columns: each flip is one of them at most once (R197).
  | .t0TileComplete _ flips => decide flips.Nodup
  -- A core's flow tag, not a rink's (R333, R334).
  | .gondolaTileCredit _ recv => decide (16 ≤ recv.val)
  | .gondolaDetach _ recv => decide (16 ≤ recv.val)
  -- A transfer moves what its slot says at most (R340).
  | .dmaSlotBad _ _ bytesDone => decide (bytesDone < 2 ^ 24)
  -- The sizes a window takes (R350).
  | .windowWrite _ _ _ data => [64, 128, 192, 256].contains data.length
  -- An agent of the crossbar and one access of the local space (R386, R391).
  | .gddr6Request agent wr addr data len _ _ =>
    decide (agent < 183) && decide (addr < 2 ^ 34) && (if wr then decide (len = 0) && !data.isEmpty else data.isEmpty && decide (0 < len))
  -- An access inside the largest BAR2 (R500).
  | .bar2Access wr off data len _ =>
    decide (off < 2 ^ 34) && (if wr then decide (len = 0) && !data.isEmpty else data.isEmpty && decide (0 < len))
  -- A memory that exists (R409 to R411).
  | .sramPatrolRead place _ => place.wf
  | .sramUncorrectable place => place.wf
  -- A page of the domain that the fault lies in (R429).
  | .ctrlParity d page segment => isPage page && (segment || decide (pageDomain page = some d.val))
  -- Lists of the store's blocks (R479).
  | .storeFormat factoryBad => decide factoryBad.Nodup
  -- An index register that the host owns (R506).
  | .ringIndexWrite _ page off _ => match pageInfo page with | some (k, _) => State.hostIndex k off.toNat | none => false
  -- A link that trained (R498).
  | .linkUp gen width => decide (1 ≤ gen.val) && [1, 2, 4, 8].contains width.toNat
  -- A flit (R522).
  | .flitReceive _ flit _ => decide (flit.length = 256)
  -- A measured set has 64 codes, and 49 units take a set (R586, R591).
  | .waxRunComplete _ measured => decide (measured.length = 64)
  | .waxSetApply unit => decide (unit < 49)
  -- A page that carries the eight counters (R596).
  | .counterLoad _ page _ _ => isCounting page
  | .counterWrap page _ => isCounting page
  -- Every operand is bounded by its type.
  | .deviceReset .. | .bootImagesChecked .. | .bringUpReady .. | .svnFloorRaise .. | .msixUnmask .. | .streamEnable ..
  | .streamDisable .. | .lineStart .. | .lineEnd .. | .frameStart .. | .frameEnd .. | .dphySync .. | .closeDeadline ..
  | .stripeRelease .. | .tableLoad .. | .seqRun .. | .seqStep .. | .clrCnt .. | .crDataWrite .. | .resInject .. | .nop ..
  | .op .. | .sem .. | .fence .. | .loop .. | .cellEnd .. | .halt .. | .t0TileIssue .. | .accTileDrain .. | .opComplete ..
  | .groupLoaded .. | .rinkDrainDone .. | .inputCopy .. | .carryMove .. | .haloSend .. | .haloArrival ..
  | .haloCreditReturn .. | .haloTimeout .. | .cellRelease .. | .setSkipped .. | .cellCompletionReport .. | .cellGate ..
  | .verdictEmit .. | .planSwitch .. | .forcePlan .. | .slalomClear .. | .chairliftFetchStart .. | .chairliftTransferDone ..
  | .dmaGo .. | .dmaAbort .. | .dmaSlotStart .. | .dmaSlotDone .. | .windowOpen .. | .windowClose .. | .windowCloseDone ..
  | .windowArrival .. | .windowTargetWrite .. | .adaptLabel .. | .adaptSwap .. | .adaptPause .. | .adaptResume ..
  | .adaptRollback .. | .adaptStep .. | .adaptStepDone .. | .weightSwap .. | .gddr6Training .. | .gddr6InitDone ..
  | .gddr6Retrain .. | .gddr6RetrainDone .. | .gddr6PatrolRead .. | .gddr6Refresh .. | .gddr6TemperatureRead ..
  | .sharedHeaderError .. | .domainWatchdog .. | .fenceCmd .. | .hotResetCmd .. | .autoReset .. | .hotResetDone ..
  | .hotResetFail .. | .eventWindowEnd .. | .nonce .. | .ownerInstall .. | .ownerRevoke .. | .sessionKeySet ..
  | .policySet .. | .quote .. | .identitySignature .. | .debugUnlock .. | .debugLock .. | .debugUnlockExpiry ..
  | .sessionOpen .. | .sessionProve .. | .sessionClose .. | .sessionChallengeTimeout .. | .sessionBackoffEnd ..
  | .sqDoorbell .. | .frameReadFail .. | .scrubComplete .. | .storeStatus .. | .modelStore .. | .modelErase ..
  | .archiveRead .. | .logRead .. | .fwWrite .. | .storeMount .. | .archiveWrite .. | .blockRefresh .. | .wearLevelCopy ..
  | .disturbScan .. | .retentionScan .. | .vringTrailer .. | .vringConfig .. | .commandRingConfig .. | .faultRingConfig ..
  | .linkDown .. | .functionReset .. | .poisonedWrite .. | .tzPortEnable .. | .tzRetrain .. | .tzTrainingDone ..
  | .tzTrainingTimeout .. | .flitReplay .. | .tzLinkSilent .. | .write .. | .writeRsp .. | .halo .. | .haloCredit ..
  | .timebaseSet .. | .ppsEnable .. | .ppsEdge .. | .ppsLost .. | .encoderEdge .. | .encoderPosWrite .. | .markerArm ..
  | .markerDue .. | .markerPulseEnd .. | .gpioEdge .. | .pllUnlock .. | .oscTrim .. | .clkoutSwitch ..
  | .powerStateRequest .. | .powerStateEntered .. | .wakeEvent .. | .powerStateExitDone .. | .glideEntry ..
  | .thermalCompare .. | .thermalTrip .. | .railUndervoltage .. | .pwrOkFall .. | .pwrOkRise .. | .pwrOkTimeout ..
  | .functionD3hot .. | .waxTempCompare .. | .waxPeriod .. | .waxRunCmd .. | .monitorConversion .. | .counterFreeze ..
  | .counterThaw .. | .counterSnapshot .. | .counterCollect .. | .collectionComplete .. | .counterDump ..
  | .bwMonitorConfig .. | .bwWindowEnd .. | .memPolicy .. | .jobLoad .. | .jobStop .. => true

end Sys2Proof
end

