-- ==== Sys2Proof/Certificates/Slice0/Obligations.lean ====
section
/-! DEFINITION. The statements for the provers. Each docstring says what the statement formalises; the bounds and the values that a log
entry chose are named there. -/

open Sys2Proof Sys2Proof.Machine Sys2Proof.Machine.State

/-- One step takes the command at the front of the queue and answers what exec answers for it, on the state whose queue is the rest.
(00_scope.md) -/
def Obligations.StepRunsFrontCommand : Prop :=
  ∀ (c : Instr) (rest : List Instr) (s : State), s.pending = c :: rest → step s = exec c { s with pending := rest }

/-- With no command waiting, a step answers a next state in which the timebase and the elapsed timebase have advanced by the scaled
increment and no memory, queue or core has changed. That an empty queue lets one cycle pass is the choice of this model (log 1); the
amount is R536. (18_time_and_field_io.md) -/
def Obligations.IdleStepIsOneTimebaseCycle : Prop :=
  ∀ s : State, s.pending = [] → ∃ t, step s = .next t ∧
    t.time.now = (s.time.now + s.increment) % 2 ^ 96 ∧ t.time.elapsed = s.time.elapsed + s.increment ∧
    t.pending = [] ∧ t.host = s.host ∧ t.gddr = s.gddr ∧ t.stripe = s.stripe ∧ t.spad = s.spad ∧ t.cores = s.cores ∧
    t.rinks = s.rinks ∧ t.jobs = s.jobs ∧ t.fe = s.fe ∧ t.store = s.store ∧ t.sec = s.sec

/-- After a device reset PG_CTRL.enable is 1 in the DV_, PP_, SC_, PX_, CK_, PW_, WX_, TB_ and NS_ pages and 0 in every other page.
(R34) -/
def Obligations.ResetEnables : Prop :=
  ∀ (page : Nat) (k : Kind) (i : Nat), pageInfo page = some (k, i) →
    State.reset.flag page PG_CTRL_enable = decide (k ∈ ([.dv, .ppMb, .ppSess, .sc, .pxCommon, .pxFault, .pxCmd, .pxVr, .ck, .pw,
      .wx, .tb, .nsCommon, .nsCh] : List Kind))

/-- After reset the boot stage is ROM, the device has not halted, no page asserts a vector, the power state is Schuss, every failure
domain is LIVE, no command waits, and no job, stripe or session exists. That every memory lists nothing, so that its bytes read 0,
is the choice of this model (log 5). (02_register_pages_and_capabilities.md, 22_bring_up.md, 19_clocks_and_power_ladder.md,
14_resilience.md) -/
def Obligations.ResetMachine : Prop :=
  State.reset.stage = 0 ∧ State.reset.halted = false ∧ State.reset.link.irqLevel = 0 ∧ State.reset.psState = 0 ∧
    (∀ d < 4, State.reset.domState d = 0) ∧ State.reset.pending = [] ∧ (∀ j, State.reset.job j = none) ∧ State.reset.fe.handed = [] ∧
    State.reset.readyReached = false ∧ (∀ a, memByte State.reset.host a = 0) ∧ (∀ a, memByte State.reset.gddr a = 0) ∧
    (∀ a, memByte State.reset.stripe a = 0) ∧ (∀ a, memByte State.reset.spad a = 0) ∧ State.reset.time.now = 0

/-- After reset the levels of the vectors are those that the pages assert, and every memory and the register table have their canonical
form. (02_register_pages_and_capabilities.md) -/
def Obligations.ResetIsSettled : Prop := Safety.Settled State.reset ∧ Safety.Canonical State.reset

/-- Whatever the state before it, a step that answers a next state leaves vector v asserted exactly when some page of its group asserts
its interrupt: for every command, every engine event and the idle cycle. A page asserts while PG_IRQ_STAT and PG_IRQ_EN have a bit
in common; that a page behind a fence asserts nothing is deduced (log 14). (02_register_pages_and_capabilities.md,
17_host_and_peer_links.md) -/
def Obligations.EveryStepSettlesTheVectors : Prop := ∀ s t : State, step s = .next t → Safety.Settled t

/-- exec answers a next state for every command on every state, save an access that names an address beyond the end of its BAR, which no
access can name: that one faults by name. (02_register_pages_and_capabilities.md, 17_host_and_peer_links.md) -/
def Obligations.EveryCommandAnswers : Prop :=
  ∀ (c : Instr) (s : State),
    (Safety.beyondBar c s = false → ∃ t, exec c s = .next t) ∧
    (Safety.beyondBar c s = true → exec c s = .fault .addressOutsideBar)

/-- In stage HALTED the step of an engine, a command from a ring and an event of a pin or a peer leave every register word but
PW_PS_STAT and everything else of the state as it was. The spec says that a device that stops on a Device-scope code does no more
work; which commands that covers is the reading of log 7. (22_bring_up.md, 01_architecture.md) -/
def Obligations.HaltedDeviceDoesNothingOfItsOwn : Prop :=
  ∀ (c : Instr) (s : State), s.halted = true → Safety.own c = true → ∃ t, exec c s = .next t ∧
    Safety.rest t = Safety.rest s ∧ Safety.WordsKept (fun _ => False) s t

/-- An admitted write of PG_IRQ_STAT, with no hardware set in the same cycle, clears each bit written 1, keeps each other bit, and
changes no other register word, memory or engine. (02_register_pages_and_capabilities.md) -/
def Obligations.IrqStatusClears : Prop :=
  ∀ (a : Agent) (page : Nat) (v : Word) (s : State), Safety.Admitted s a page 0x14 →
    ∃ t, exec (.pgIrqStatClear a page v 0) s = .next t ∧
      (∀ b < 32, bit (t.word (page + 0x14)) b = (bit (s.word (page + 0x14)) b && !bit v.toNat b)) ∧
      Safety.WordsKept (fun k => k = page + 0x14) s t ∧ Safety.rest t = Safety.rest s

/-- When a hardware set of a PG_IRQ_STAT bit and a W1C write of 1 to that bit take effect in the same cycle, the bit is 1 afterwards,
and PG_ERR_CNT is as before. (R42) -/
def Obligations.SetWinsOverClear : Prop :=
  ∀ (a : Agent) (page : Nat) (v hwSet : Word) (b : Nat) (s : State), Safety.Admitted s a page 0x14 → b < 32 →
    bit v.toNat b = true → bit hwSet.toNat b = true →
    ∃ t, exec (.pgIrqStatClear a page v hwSet) s = .next t ∧ bit (t.word (page + 0x14)) b = true ∧
      t.word (page + 0x20) = s.word (page + 0x20)

/-- When an increment of PG_ERR_CNT.count with a cause of R37 and a write of 1 to PG_ERR_CNT.clear take effect in the same cycle, the
clear is applied first: the register then holds count 1 and that cause. (R38) -/
def Obligations.ClearBeforeIncrement : Prop :=
  ∀ (a : Agent) (page : Nat) (v : Word) (cause : BitVec 8) (off : BitVec 12) (s : State), Safety.Admitted s a page 0x20 →
    1 ≤ cause.toNat → cause.toNat ≤ 8 →
    ∃ t, exec (.pgErrCntClear a page v cause off) s = .next t ∧ t.getF page PG_ERR_CNT_count = 1 ∧
      t.getF page PG_ERR_CNT_last_cause = cause.toNat

/-- A write of PG_IRQ_EN stores the mask. A write of PG_IRQ_FORCE sets each bit written 1 and clears none; on a page without counters it
keeps every other bit, and set_evt rises, wrapping, by the number of bits written 1 that are enabled, found 1 before or not. With no
increment in the same cycle, the clear leaves count 0 and no cause, and changes no other register word, memory or engine.
(02_register_pages_and_capabilities.md) -/
def Obligations.HeaderWrites : Prop :=
  (∀ (a : Agent) (page : Nat) (v : Word) (s : State),
    (Safety.Admitted s a page 0x18 → ∃ t, exec (.pgIrqEnWrite a page v) s = .next t ∧ t.word (page + 0x18) = v.toNat ∧
      Safety.WordsKept (fun k => k = page + 0x18) s t ∧ Safety.rest t = Safety.rest s) ∧
    (Safety.Admitted s a page 0x1C → ∃ t, exec (.pgIrqForceWrite a page v) s = .next t ∧
      (∀ b < 32, bit v.toNat b = true ∨ bit (s.word (page + 0x14)) b = true → bit (t.word (page + 0x14)) b = true) ∧
      Safety.WordsKept (Safety.eventWords page) s t ∧ Safety.rest t = Safety.rest s ∧
      ∀ k i, pageInfo page = some (k, i) → countsEvents k = false →
        (∀ b < 32, bit v.toNat b = false → bit (t.word (page + 0x14)) b = bit (s.word (page + 0x14)) b) ∧
        t.getF page PG_STAT_set_evt = (s.getF page PG_STAT_set_evt +
          ((List.range 32).filter fun b => bit v.toNat b && bit (s.word (page + 0x18)) b).length) % 2 ^ 16)) ∧
  (∀ (a : Agent) (page : Nat) (v : Word) (off : BitVec 12) (s : State), Safety.Admitted s a page 0x20 →
    ∃ t, exec (.pgErrCntClear a page v 0 off) s = .next t ∧ t.getF page PG_ERR_CNT_count = 0 ∧
      t.getF page PG_ERR_CNT_last_cause = 0 ∧ Safety.WordsKept (fun k => k = page + 0x20) s t ∧ Safety.rest t = Safety.rest s)

/-- The first write of PG_LOCK since it was re-armed sets lock to the written bit and, where that is 1, records the agent as owner; a
later write leaves lock and owner and is counted with cause 0x03. Everything but register words and the record of the write is kept.
While PG_LOCK.lock of an answering page is 1, an aligned 32-bit write of the host to a register of the page that holds an RW, W1S or
WO field, PG_IRQ_STAT, PG_IRQ_EN, PG_ERR_CNT, PG_SCRATCH and the counter registers apart, is counted with cause 0x02 and leaves
every register word but PG_ERR_CNT, PG_ERR_ADDR and the event words, and everything else, as it was.
(02_register_pages_and_capabilities.md) -/
def Obligations.PageLocks : Prop :=
  (∀ (a : Agent) (page : Nat) (v : Word) (s : State), Safety.Admitted s a page 0x28 →
    ∃ t, exec (.pgLockWrite a page v) s = .next t ∧ Safety.rest t = Safety.rest s ∧
      (s.woDone.contains (page + 0x28) = false →
        t.flag page PG_LOCK_lock = bit v.toNat 0 ∧ t.woDone.contains (page + 0x28) = true ∧
        (bit v.toNat 0 = true → t.getF page PG_LOCK_owner = match a with | .host => 1 | .puppeteer => 2) ∧
        Safety.WordsKept (fun k => k = page + 0x28) s t) ∧
      (s.woDone.contains (page + 0x28) = true →
        t.word (page + 0x28) = s.word (page + 0x28) ∧ t.getF page PG_ERR_CNT_last_cause = 3 ∧
        t.getF page PG_ERR_CNT_count = min (s.getF page PG_ERR_CNT_count + 1) 65535 ∧
        Safety.WordsKept (Safety.errorWords page) s t)) ∧
  (∀ (page off : Nat) (v : BitVec 64) (k : Kind) (i : Nat) (r : RegRow) (s : State),
    s.hostWaits = false → s.answers page = true → s.resetBusy page = false → s.clkOff page = false →
    page + off < 2 ^ 26 → off < 0xF00 → off % 4 = 0 → off ∉ ([0x14, 0x18, 0x20, 0x2C] : List Nat) →
    pageInfo page = some (k, i) → capWord page k off = none → regRow k off = some r → lockGuards r = true →
    s.hostReadBars .host page off true = false → s.flag page PG_LOCK_lock = true →
    ∃ t, exec (.registerWrite .host .bar0 (page + off) 4 v) s = .next t ∧
      t.getF page PG_ERR_CNT_last_cause = 2 ∧ t.getF page PG_ERR_CNT_count = min (s.getF page PG_ERR_CNT_count + 1) 65535 ∧
      Safety.WordsKept (Safety.errorWords page) s t ∧ Safety.rest t = Safety.rest s)

/-- A 32-bit write of PG_SCRATCH of an answering BAR0 page followed by a 32-bit read of it by the same agent returns the low 32 bits
written; neither changes another register word, a memory or an engine. (02_register_pages_and_capabilities.md) -/
def Obligations.ScratchReadsBack : Prop :=
  ∀ (a : Agent) (page : Nat) (v : BitVec 64) (s : State), Safety.Admitted s a page 0x2C → page + 0x2C < 2 ^ 26 →
    ∃ t u, exec (.registerWrite a .bar0 (page + 0x2C) 4 v) s = .next t ∧ exec (.registerRead a .bar0 (page + 0x2C) 4) t = .next u ∧
      t.word (page + 0x2C) = v.toNat % 2 ^ 32 ∧ u.rdata.toNat = v.toNat % 2 ^ 32 ∧
      Safety.WordsKept (fun k => k = page + 0x2C) s u ∧ Safety.rest { u with rdata := s.rdata } = Safety.rest s

/-- A read of a BAR0 offset that no page answers, or of the debug window before an unlock admits its rink, returns 0xFFFF_FFFF; a write
there is dropped. Each increments DV_BAD_CNT.count, which holds at its largest value, and records write, source and offset in
DV_BAD_ADDR. Nothing else changes. The size of a part of a rink of the debug window is deduced (log 53).
(02_register_pages_and_capabilities.md) -/
def Obligations.UnansweredAccess : Prop :=
  ∀ (a : Agent) (addr : Nat) (write : Bool) (s : State), addr < 2 ^ 26 → (a == .host && s.hostWaits) = false →
    s.answers (addr / 0x1000 * 0x1000) = false → (inDebug (addr / 4 * 4) = true → s.debugAdmits (debugRink (addr / 4 * 4)) = false) →
    ∃ t, exec (.unansweredAccess a .bar0 addr write) s = .next t ∧
      (write = false → t.rdata.toNat = 0xFFFFFFFF) ∧
      t.getF dvPage DV_BAD_CNT_count = min (s.getF dvPage DV_BAD_CNT_count + 1) 65535 ∧
      t.word (dvPage + 0x44) = b01 write * 2 ^ 31 + b01 (a == .puppeteer) * 2 ^ 30 + addr / 4 * 4 ∧
      Safety.WordsKept (fun k => k = dvPage + 0x40 ∨ k = dvPage + 0x44) s t ∧
      Safety.rest { t with rdata := s.rdata } = Safety.rest s

/-- A write of 1 to PG_CTRL.soft_reset keeps PG_ERR_CNT, PG_ERR_ADDR, PG_LOCK and PG_SCRATCH of the page, keeps enable as written on
every page but a stream page, closes the page body for at most 64 Strings cycles of 5 ns, and returns the registers of a port,
channel, window table, Chairlift, rink or core page to reset, but for those that show what another rule keeps (log 52).
(02_register_pages_and_capabilities.md) -/
def Obligations.SoftResetKeeps : Prop :=
  ∀ (a : Agent) (page : Nat) (v : Word) (k : Kind) (i : Nat) (s : State), Safety.Admitted s a page 0xC →
    pageInfo page = some (k, i) → k ∈ ([.fePort, .mxCh, .wnTab, .clRink, .clCore, .rk, .cr, .gd, .wn, .mxCommon] : List Kind) →
    ∃ t, exec (.softReset a page v) s = .next t ∧
      (∀ off ∈ ([0x20, 0x24, 0x28, 0x2C] : List Nat), t.word (page + off) = s.word (page + off)) ∧
      t.flag page PG_CTRL_enable = bit v.toNat 0 ∧
      tabGet (fun _ => 0) t.softBusy page ≤ t.time.elapsed + 64 * 5 * 2 ^ 32 ∧
      (∀ off < 0x1000, off ∉ ([0xC, 0x20, 0x24, 0x28, 0x2C] : List Nat) → softKeeps k off = false →
        t.word (page + off) = (regReset (page + off)).toNat) ∧
      Safety.WordsKept (fun key => page ≤ key ∧ key < page + 0x1000) s t

/-- When the host unmasks a vector of the MSI-X table after READY, the mask bit reads 0; where a message was pending and the link is up,
it is sent and no longer pending; where none was pending, none is sent. (02_register_pages_and_capabilities.md,
17_host_and_peer_links.md) -/
def Obligations.VectorUnmaskSends : Prop :=
  ∀ (vec : Fin 128) (s : State), s.hostWaits = false → s.readyReached = true →
    ∃ t u, exec (.msixUnmask vec) s = .next t ∧ t = Safety.ended u ∧ u.masked vec = false ∧ Safety.rest u = Safety.rest s ∧
      (bit s.link.pba vec = true → s.link.up = true → bit u.link.pba vec = false ∧
        tabGet (fun _ => 0) u.link.msiSent vec = tabGet (fun _ => 0) s.link.msiSent vec + 1) ∧
      (bit s.link.pba vec = false → u.link = s.link)

/-- With no job bound, an admitted write of TB_SET_HI loads the timebase with TB_SET_HI:TB_SET_LO and fraction 0, and leaves the elapsed
timebase and everything but TB_SET_HI as it was; while a job is bound the write is dropped and counted with cause 0x08.
(18_time_and_field_io.md) -/
def Obligations.TimebaseLoad : Prop :=
  ∀ (a : Agent) (v : Word) (s : State), Safety.Admitted s a tbPage 0x54 →
    (s.jobBound = false → ∃ t, exec (.timebaseSet a v) s = .next t ∧
      t.time.now = (v.toNat * 2 ^ 32 + s.getF tbPage TB_SET_LO_ns_lo) * 2 ^ 32 ∧ t.time.elapsed = s.time.elapsed ∧
      t.word (tbPage + 0x54) = v.toNat ∧ Safety.WordsKept (fun k => k = tbPage + 0x54) s t ∧
      Safety.rest { t with time := s.time } = Safety.rest s) ∧
    (s.jobBound = true → ∃ t, exec (.timebaseSet a v) s = .next t ∧ t.getF tbPage PG_ERR_CNT_last_cause = 8 ∧
      Safety.WordsKept (Safety.errorWords tbPage) s t ∧ Safety.rest t = Safety.rest s)

/-- Writing pps_en = 1 while the servo is FREE takes it to ACQUIRE with S = 0; writing pps_en = 0 frees it and keeps y. In ACQUIRE or
LOCKED, 1.5 s of timebase without an accepted edge take it to HOLDOVER with y set to the drift and the holdover counted from 0. With
pps_en 1 and the selected polarity, an edge less than 999,000,000 ns of timebase after the previous accepted edge is only counted in
TB_STAT.rejected; another is accepted: TB_PHASE shows the distance of the capture from the nearest whole second, a tie taking the
lower, and the time of the edge is kept. An edge in the cycle of a load, of the other polarity, or with pps_en 0 changes nothing.
(18_time_and_field_io.md) -/
def Obligations.PpsServo : Prop :=
  ((∀ (a : Agent) (v : Word) (s : State), Safety.Admitted s a tbPage 0x40 →
    ∃ t, exec (.ppsEnable a v) s = .next t ∧ t.flag tbPage TB_CTRL_pps_en = bit v.toNat 0 ∧
      t.getF tbPage TB_FREQ_y = s.getF tbPage TB_FREQ_y ∧ t.time.now = s.time.now ∧
      (bit v.toNat 0 = true → s.getF tbPage TB_STAT_state = 0 → t.getF tbPage TB_STAT_state = 1 ∧ t.time.servoS = 0) ∧
      (bit v.toNat 0 = false → t.getF tbPage TB_STAT_state = 0) ∧ Safety.rest { t with time := s.time } = Safety.rest s) ∧
  (∀ s : State, s.halted = false → (s.getF tbPage TB_STAT_state = 1 ∨ s.getF tbPage TB_STAT_state = 2) →
    1500000000 * 2 ^ 32 ≤ s.time.elapsed - s.time.ppsSince →
    ∃ t, exec .ppsLost s = .next t ∧ t.getF tbPage TB_STAT_state = 3 ∧
      t.getF tbPage TB_FREQ_y = s.getF tbPage TB_DRIFT_drift ∧ t.getF tbPage TB_HOLD_seconds = 0 ∧
      t.time.holdStart = s.time.elapsed ∧ t.time.now = s.time.now ∧ t.gddr = s.gddr ∧ t.stripe = s.stripe ∧ t.spad = s.spad)) ∧
  (∀ (falling withLoad : Bool) (s : State), s.halted = false →
    ∃ t, exec (.ppsEdge falling withLoad) s = .next t ∧
      ((s.flag tbPage TB_CTRL_pps_en = false ∨ s.flag tbPage TB_CTRL_pps_fall ≠ falling ∨ withLoad = true) →
        Safety.WordsKept (fun _ => False) s t ∧ Safety.rest t = Safety.rest s) ∧
      (s.flag tbPage TB_CTRL_pps_en = true → s.flag tbPage TB_CTRL_pps_fall = falling → withLoad = false →
        (∀ l, s.time.ppsLast = some l → s.time.elapsed - l < 999000000 * 2 ^ 32 →
          t.getF tbPage TB_STAT_rejected = min (s.getF tbPage TB_STAT_rejected + 1) 65535 ∧ t.time = s.time ∧
          t.getF tbPage TB_PHASE_e = s.getF tbPage TB_PHASE_e) ∧
        ((∀ l, s.time.ppsLast = some l → 999000000 * 2 ^ 32 ≤ s.time.elapsed - l) →
          t.time.ppsLast = some s.time.elapsed ∧ t.time.elapsed = s.time.elapsed ∧
          t.getF tbPage TB_PHASE_e = satSigned 32 (rdivInt (phaseError
            ((s.time.now : Int) - toSigned 32 (s.getF tbPage TB_PPS_OFF_ns) * 2 ^ 32)) (2 ^ 24)))))

/-- For an enabled encoder, one changed input moves the position by 1, wrapping: up when A leads B, the sense reversed by rev. Both
changing at once hold the position and raise TB_ENCn_ERR by 1. A disabled encoder counts nothing. A write of TB_ENCn_POS stores its
value. (18_time_and_field_io.md) -/
def Obligations.EncoderEdges : Prop :=
  (∀ (n : Fin 4) (a b : Bool) (s : State), s.halted = false →
    let oldA := bit s.time.encLevels (2 * n)
    let oldB := bit s.time.encLevels (2 * n + 1)
    let pos := s.getF tbPage TB_ENCn_POS_pos n
    let rev := s.flag tbPage TB_ENCn_CFG_rev n
    ∃ t, exec (.encoderEdge n a b) s = .next t ∧ bit t.time.encLevels (2 * n) = a ∧ bit t.time.encLevels (2 * n + 1) = b ∧
      (s.flag tbPage TB_ENCn_CFG_en n = false → t.getF tbPage TB_ENCn_POS_pos n = pos) ∧
      (s.flag tbPage TB_ENCn_CFG_en n = true →
        (a ≠ oldA → b ≠ oldB → t.getF tbPage TB_ENCn_POS_pos n = pos ∧
          t.getF tbPage TB_ENCn_ERR_count n = min (s.getF tbPage TB_ENCn_ERR_count n + 1) (2 ^ 32 - 1)) ∧
        (a ≠ oldA → b = oldB → t.getF tbPage TB_ENCn_POS_pos n =
          (if (a != oldB) != rev then (pos + 1) % 2 ^ 32 else (pos + 2 ^ 32 - 1) % 2 ^ 32)) ∧
        (a = oldA → b ≠ oldB → t.getF tbPage TB_ENCn_POS_pos n =
          (if (b == oldA) != rev then (pos + 1) % 2 ^ 32 else (pos + 2 ^ 32 - 1) % 2 ^ 32))) ∧
      t.gddr = s.gddr ∧ t.stripe = s.stripe ∧ t.spad = s.spad) ∧
  (∀ (a : Agent) (n : Fin 4) (v : Word) (s : State), Safety.Admitted s a tbPage (0x84 + 0x10 * n) →
    ∃ t, exec (.encoderPosWrite a n v) s = .next t ∧ t.getF tbPage TB_ENCn_POS_pos n = v.toNat ∧
      Safety.WordsKept (fun k => k = tbPage + 0x84 + 0x10 * n) s t ∧ Safety.rest t = Safety.rest s)

/-- An admitted write of TB_MKm_ARM with go sends the request of its target and mode: with the marker off or 16 requests waiting it is
dropped and counted in dropped; not yet due, it joins the queue at its end; already due by at most the lateness allowed, it joins
the queue and counts in late; later than that, it is dropped and counted. pending shows the queue. Without go nothing joins. When
width_us have passed the output of a marker goes inactive, and its queue stays. When a pin shows a new level, TB_GPIO_IN shows it,
every other pin of TB_GPIO_IN stays, and an edge enabled for its direction writes its stamp and raises event bit 6 + p; an edge that
is not enabled leaves the stamp. (18_time_and_field_io.md) -/
def Obligations.MarkersAndPins : Prop :=
  (∀ (a : Agent) (m : Fin 16) (v : Word) (s : State), Safety.Admitted s a tbPage (0x110 + 0x20 * m) →
    let tgt := s.get64 tbPage TB_MKm_TGT_LO_tgt_lo TB_MKm_TGT_HI_tgt_hi m
    let r : MarkerReq := ⟨bit v.toNat 30, if bit v.toNat 30 then tgt % 2 ^ 32 else tgt⟩
    let most := if r.enc then s.getF tbPage TB_MKm_LATE_late_cnt m else s.getF tbPage TB_MKm_LATE_late_us m * 1000
    ∃ t, exec (.markerArm a m v) s = .next t ∧ Safety.rest { t with time := s.time } = Safety.rest s ∧
      (bit v.toNat 31 = false → t.marker m = s.marker m) ∧
      (bit v.toNat 31 = true →
        ((s.flag tbPage TB_MKm_CFG_en m = false ∨ 16 ≤ (s.marker m).queue.length) → t.marker m = s.marker m ∧
          t.getF tbPage TB_MKm_STAT_dropped m = min (s.getF tbPage TB_MKm_STAT_dropped m + 1) 255) ∧
        (s.flag tbPage TB_MKm_CFG_en m = true → (s.marker m).queue.length < 16 →
          (s.lateness m r = none → (t.marker m).queue = (s.marker m).queue ++ [r] ∧
            t.getF tbPage TB_MKm_STAT_pending m = (s.marker m).queue.length + 1) ∧
          (∀ d, s.lateness m r = some d → d ≤ most → (t.marker m).queue = (s.marker m).queue ++ [r] ∧
            t.getF tbPage TB_MKm_STAT_late m = min (s.getF tbPage TB_MKm_STAT_late m + 1) 255 ∧ bit (t.word (tbPage + 0x14)) 5 = true) ∧
          (∀ d, s.lateness m r = some d → most < d → t.marker m = s.marker m ∧
            t.getF tbPage TB_MKm_STAT_dropped m = min (s.getF tbPage TB_MKm_STAT_dropped m + 1) 255 ∧
            bit (t.word (tbPage + 0x14)) 5 = true)))) ∧
  ((∀ (m : Fin 16) (e : Nat) (s : State), s.halted = false → (s.marker m).activeEnd = some e → e ≤ s.time.elapsed →
    ∃ t, exec (.markerPulseEnd m) s = .next t ∧ t.marker m = { s.marker m with activeEnd := none } ∧
      Safety.WordsKept (fun k => k = fldKey tbPage TB_MKm_STAT_pending m) s t ∧ Safety.rest { t with time := s.time } = Safety.rest s) ∧
  (∀ (p : Fin 16) (level : Bool) (s : State), s.halted = false → bit (s.getF tbPage TB_GPIO_IN_in) p ≠ level →
    let on := if level then bit (s.getF tbPage TB_GPIO_EDGE_rise_en) p else bit (s.getF tbPage TB_GPIO_EDGE_fall_en) p
    ∃ t, exec (.gpioEdge p level) s = .next t ∧ bit (t.getF tbPage TB_GPIO_IN_in) p = level ∧
      (∀ q : Fin 16, q ≠ p → bit (t.getF tbPage TB_GPIO_IN_in) q = bit (s.getF tbPage TB_GPIO_IN_in) q) ∧
      (on = true → t.get64 tbPage TB_GPIOp_TS_LO_ns_lo TB_GPIOp_TS_HI_ns_hi p = s.ns % 2 ^ 64 ∧
        bit (t.word (tbPage + 0x14)) (6 + p) = true) ∧
      (on = false → Safety.WordsKept (fun k => k = fldKey tbPage TB_GPIO_IN_in 0) s t ∧
        Safety.rest { t with time := s.time } = Safety.rest s) ∧
      t.time = { s.time with gpioExt := t.time.gpioExt } ∧ bit t.time.gpioExt p = level ∧
      ∀ q : Fin 16, q ≠ p → bit t.time.gpioExt q = bit s.time.gpioExt q))

/-- A request that falls due while the output of its marker is active restarts the pulse at its full width from the due cycle and merged
increments. Requests that fall due in the same cycle give one pulse, and every request but one is counted in merged. (R549) -/
def Obligations.MarkerPulses : Prop :=
  ∀ (m : Fin 16) (s : State), s.halted = false →
    let due := (s.marker m).queue.filter fun r => (s.lateness m r).isSome
    due ≠ [] →
    ∃ t, exec (.markerDue m) s = .next t ∧
      (t.marker m).activeEnd = some (s.time.elapsed + s.getF tbPage TB_MKm_CFG_width_us m * 1000 * 2 ^ 32) ∧
      (t.marker m).queue = (s.marker m).queue.filter (fun r => (s.lateness m r).isNone) ∧
      ((s.marker m).activeEnd.isSome = true →
        t.getF tbPage TB_MKm_STAT_merged m = min (s.getF tbPage TB_MKm_STAT_merged m + due.length) 255 ∧
        t.getF tbPage TB_MKm_CNT_pulses m = s.getF tbPage TB_MKm_CNT_pulses m) ∧
      ((s.marker m).activeEnd.isSome = false →
        t.getF tbPage TB_MKm_STAT_merged m = min (s.getF tbPage TB_MKm_STAT_merged m + (due.length - 1)) 255 ∧
        t.getF tbPage TB_MKm_CNT_pulses m = (s.getF tbPage TB_MKm_CNT_pulses m + 1) % 2 ^ 32) ∧
      Safety.WordsKept (fun k => k = fldKey tbPage TB_MKm_STAT_merged m ∨ k = fldKey tbPage TB_MKm_CNT_pulses m) s t ∧
      Safety.rest { t with time := s.time } = Safety.rest s

/-- In Schuss or Glide, or in a shallower state, a request for state k of 2 to 5 whose conditions all hold starts the entry: the state
reads entering and the target k. A request with a condition that fails leaves the state, shows the reason and counts. During an
entry or exit it is refused with reason 1. (19_clocks_and_power_ladder.md) -/
def Obligations.PowerStateRequests : Prop :=
  ∀ (a : Agent) (v : Word) (s : State), Safety.Admitted s a pwPage 0x40 → 2 ≤ bits v.toNat 2 0 → bits v.toNat 2 0 ≤ 5 →
    (s.psState < bits v.toNat 2 0 → s.psRefuse (bits v.toNat 2 0) = 0 → ∃ t, exec (.powerStateRequest a v) s = .next t ∧
      t.psState = 6 ∧ t.getF pwPage PW_PS_STAT_target = bits v.toNat 2 0 ∧ t.power.deepest = bits v.toNat 2 0 ∧
      t.host = s.host ∧ t.gddr = s.gddr ∧ t.stripe = s.stripe ∧ t.spad = s.spad ∧ t.cores = s.cores ∧ t.rinks = s.rinks) ∧
    (2 ≤ s.psState → s.psState < bits v.toNat 2 0 → s.psRefuse (bits v.toNat 2 0) ≠ 0 →
      ∃ t, exec (.powerStateRequest a v) s = .next t ∧ t.psState = s.psState ∧
      t.getF pwPage PW_PS_STAT_refuse = s.psRefuse (bits v.toNat 2 0) ∧
      t.getF pwPage PW_PS_CNT_refused = min (s.getF pwPage PW_PS_CNT_refused + 1) 65535) ∧
    ((s.psState = 6 ∨ s.psState = 7) → ∃ t, exec (.powerStateRequest a v) s = .next t ∧ t.psState = s.psState ∧
      t.getF pwPage PW_PS_STAT_refuse = 1)

/-- When the entry steps are complete the state reads its target, from Chalet on stripe memory is lost, in Off-season the supplies are
released; when the exit is complete, with PWR_OK given and no host request waiting, the state reads its target. Each raises its
event and keeps GDDR6. A timebase alarm that is enabled and due, alone, wakes a state of 2 to 5: exiting to Schuss with the source
shown; during an entry it aborts the entry with reason 8; in Schuss and Glide it does nothing. With nothing active for 1 µs, Schuss
reads Glide. (19_clocks_and_power_ladder.md) -/
def Obligations.PowerStateChanges : Prop :=
  (∀ s : State, s.halted = false →
    (s.psState = 6 → 2 ≤ s.getF pwPage PW_PS_STAT_target → s.getF pwPage PW_PS_STAT_target ≤ 5 →
      ∃ t, exec .powerStateEntered s = .next t ∧ t.psState = s.getF pwPage PW_PS_STAT_target ∧ bit (t.word (pwPage + 0x14)) 0 = true ∧
      (4 ≤ s.getF pwPage PW_PS_STAT_target → t.stripe = []) ∧ (s.getF pwPage PW_PS_STAT_target < 4 → t.stripe = s.stripe) ∧
      (s.getF pwPage PW_PS_STAT_target < 3 → t.spad = s.spad) ∧ (s.getF pwPage PW_PS_STAT_target = 5 → t.power.supplyEn = false) ∧
      t.gddr = s.gddr) ∧
    (s.psState = 7 → s.power.wakeAt = none → s.power.heldReqs = [] → s.getF pwPage PW_PS_STAT_target ∈ ([0, 2, 3, 4] : List Nat) →
      ∃ t, exec .powerStateExitDone s = .next t ∧ t.psState = s.getF pwPage PW_PS_STAT_target ∧
      t.power.deepest = s.getF pwPage PW_PS_STAT_target ∧ bit (t.word (pwPage + 0x14)) 1 = true ∧ t.gddr = s.gddr ∧
      t.stripe = s.stripe ∧ t.spad = s.spad ∧ t.host = s.host)) ∧
  (∀ s : State, s.halted = false →
    (s.flag pwPage PW_WAKE_alarm = true → s.get64 pwPage PW_ALARM_LO_ns_lo PW_ALARM_HI_ns_hi ≤ s.ns →
      ∃ t, exec (.wakeEvent 0x20000) s = .next t ∧
        (2 ≤ s.psState → s.psState ≤ 5 → t.psState = 7 ∧ t.getF pwPage PW_PS_STAT_target = 0 ∧
          t.getF pwPage PW_WAKE_SRC_src = 0x20000 ∧ (s.psState = 5 → t.power.supplyEn = true)) ∧
        (s.psState = 6 → t.psState = 7 ∧ t.getF pwPage PW_PS_STAT_target = 0 ∧ t.getF pwPage PW_PS_STAT_refuse = 8) ∧
        (s.psState = 0 → t.psState = 0 ∧ Safety.rest t = Safety.rest s)) ∧
    (s.psState = 0 → s.active = false → s.power.idleSince + 1000 * 2 ^ 32 ≤ s.time.elapsed →
      ∃ t, exec .glideEntry s = .next t ∧ t.psState = 1 ∧ Safety.WordsKept (fun _ => False) s t ∧ Safety.rest t = Safety.rest s))

/-- With throttle_en 1, a hottest reading at or above thr_c raises the throttle level by one unless it is at max_level, and the rink
clock with it; the tenth comparison in a row below thr_c − hyst_c lowers it by one. PW_THERM_STAT shows the hottest reading and its
sensor. (19_clocks_and_power_ladder.md) -/
def Obligations.Throttling : Prop :=
  ∀ s : State, s.halted = false →
    let hot := s.hottest.1
    let thr : Int := s.getF pwPage PW_THERM_thr_c
    let hyst : Int := s.getF pwPage PW_THERM_hyst_c
    let l := s.getF ckPage CK_RINK_level
    ∃ t, exec .thermalCompare s = .next t ∧
      t.getF pwPage PW_THERM_STAT_hot = ofSigned 16 hot ∧ t.getF pwPage PW_THERM_STAT_sensor = s.hottest.2 ∧
      (s.flag pwPage PW_THERM_throttle_en = true →
        (10 * thr ≤ hot → l < s.getF pwPage PW_THERM_max_level →
          t.getF ckPage CK_RINK_level = l + 1 ∧ t.getF ckPage CK_RINK_mhz = rinkMhz (l + 1)) ∧
        (10 * thr ≤ hot → s.getF pwPage PW_THERM_max_level ≤ l → t.getF ckPage CK_RINK_level = l) ∧
        (hot < 10 * (thr - hyst) → s.power.coolCount + 1 < 10 →
          t.getF ckPage CK_RINK_level = l ∧ t.power.coolCount = s.power.coolCount + 1) ∧
        (hot < 10 * (thr - hyst) → hot < 10 * thr → 10 ≤ s.power.coolCount + 1 → 0 < l →
          t.getF ckPage CK_RINK_level = l - 1 ∧ t.power.coolCount = 0)) ∧
      (s.flag pwPage PW_THERM_throttle_en = false → t.getF ckPage CK_RINK_level = l) ∧ t.gddr = s.gddr ∧ t.spad = s.spad

/-- In stage FIRMWARE or READY, with no reset held, a hottest reading at or above trip_c, an undervoltage of a rail that is no domain
rail while the supplies are on, the fall of PWR_OK while they are on, 10 ms without PWR_OK after a wake, and the loss of lock of a
PLL of no domain each halt the device: the stage reads HALTED with the code, and DV_HALT records the first such code. The trip
drives TRIP_N low. (19_clocks_and_power_ladder.md, 22_bring_up.md, 23_electrical_and_package.md) -/
def Obligations.DeviceHalts : Prop :=
  ∀ s : State, (s.stage = 3 ∨ s.stage = 4) → s.link.heldReset = false → s.getF dvPage DV_HALT_code = 0 →
    let stops := fun (c : Instr) (code : Nat) (p : State → Prop) => ∃ t, exec c s = .next t ∧ t.halted = true ∧
      t.getF dvPage DV_BOOT_code = code ∧ t.getF dvPage DV_HALT_code = code ∧ p t
    (10 * (s.getF pwPage PW_THERM_trip_c : Int) ≤ s.hottest.1 → stops .thermalTrip 0x0806 fun t => t.power.trip = true) ∧
    (∀ r : Fin 12, 4 ≤ r.val → (s.power.supplyEn = true ∨ r.val = 6) → stops (.railUndervoltage r) 0x0804 fun t =>
      bit (t.word (pwPage + 0x14)) 4 = true) ∧
    (s.power.pwrOk = true → s.power.supplyEn = true → stops .pwrOkFall 0x0804 fun t => t.power.pwrOk = false) ∧
    (∀ e, s.power.wakeAt = some e → e + 10000000 * 2 ^ 32 ≤ s.time.elapsed → stops .pwrOkTimeout 0x0804 fun t => t.power.wakeAt = none) ∧
    (∀ i : Fin 32, i.val < 12 → stops (.pllUnlock i) 0x0802 fun t =>
      bit (t.getF ckPage CK_UNLOCK_lost) i = true ∧ bit (t.getF ckPage CK_LOCK_locked) i = false)

/-- A count of cycles within 1 % of 40 MHz stays as the trim, another is brought within 1 %, to where is free (log 8). An admitted write
of CK_CLKOUT whose source and divisor give at most 200 MHz takes effect with event bit 2; one above keeps both and is counted with
cause 0x01. PWR_OK rises. The function moves between D0 and D3hot. (19_clocks_and_power_ladder.md) -/
def Obligations.ClockCommands : Prop :=
  (∀ (n : Nat) (s : State), s.halted = false → stateRuns s.clockState 58 = true → ∃ t, exec (.oscTrim n) s = .next t ∧
    39600 ≤ t.power.oscTrim ∧ t.power.oscTrim ≤ 40400 ∧ (39600 ≤ n → n ≤ 40400 → t.power.oscTrim = n) ∧
    Safety.WordsKept (fun _ => False) s t ∧ t.time = s.time ∧ t.gddr = s.gddr) ∧
  (∀ (a : Agent) (v : Word) (s : State), Safety.Admitted s a ckPage 0x60 → bits v.toNat 21 16 ≤ 59 →
    ∃ t, exec (.clkoutSwitch a v) s = .next t ∧ Safety.rest t = Safety.rest s ∧ bit (t.word (ckPage + 0x14)) 2 = true ∧
      (domainMax (bits v.toNat 21 16) ≤ 20000 * (bits v.toNat 11 0 + 1) → t.flag ckPage CK_CLKOUT_en = bit v.toNat 31 ∧
        t.getF ckPage CK_CLKOUT_sel = bits v.toNat 21 16 ∧ t.getF ckPage CK_CLKOUT_div_m1 = bits v.toNat 11 0) ∧
      (20000 * (bits v.toNat 11 0 + 1) < domainMax (bits v.toNat 21 16) → t.getF ckPage CK_CLKOUT_div_m1 = s.getF ckPage CK_CLKOUT_div_m1 ∧
        t.getF ckPage PG_ERR_CNT_last_cause = 1)) ∧
  (∀ s : State, s.halted = false → ∃ t, exec .pwrOkRise s = .next t ∧ t.power.pwrOk = true ∧ t.power.wakeAt = none ∧
    Safety.WordsKept (fun _ => False) s t) ∧
  (∀ (hot : Bool) (s : State), s.hostWaits = false → ∃ t, exec (.functionD3hot hot) s = .next t ∧ t.link.d3hot = hot ∧
    Safety.WordsKept (fun _ => False) s t ∧ t.time = s.time ∧ t.gddr = s.gddr ∧ t.host = s.host)

/-- Each by itself, admitted: a freeze of counters that run records the time, shows frozen and raises event bit 0; one of frozen
counters keeps the recorded time. A thaw clears frozen. A snapshot copies both words of every counter of every counter-bearing page
whose domain is live into its snapshot words, and keeps the counter words. With the collector free and the PC_ page enabled, an
admitted collect shows busy and keeps the time of its snapshot and its destination. When a collection of no ring command is
complete, the dump stands at its destination in host memory, or in the local GDDR6 space where nothing is sealed, every other byte
of that memory is as before, busy is 0 and event bit 1 is raised. (21_performance_counters.md) -/
def Obligations.FreezesSnapshotsAndCollections : Prop :=
  (∀ (a : Agent) (v : Word) (s : State), Safety.Admitted s a pcPage 0x40 → bits v.toNat 31 28 = 0 →
    (∃ t, exec (.counterFreeze a v) s = .next t ∧ t.flag pcPage PC_CTRL_frozen = true ∧ Safety.rest t = Safety.rest s ∧
      (s.flag pcPage PC_CTRL_frozen = false → t.get64 pcPage PC_FRZ_LO_t_lo PC_FRZ_HI_t_hi = s.ns % 2 ^ 64 ∧
        bit (t.word (pcPage + 0x14)) 0 = true) ∧
      (s.flag pcPage PC_CTRL_frozen = true → t.word (pcPage + 0x4C) = s.word (pcPage + 0x4C))) ∧
    (∃ t, exec (.counterThaw a v) s = .next t ∧ t.flag pcPage PC_CTRL_frozen = false ∧ Safety.rest t = Safety.rest s ∧
      Safety.WordsKept (fun k => k = pcPage + 0x40) s t) ∧
    (∃ t, exec (.counterSnapshot a v) s = .next t ∧ Safety.rest t = Safety.rest s ∧
      ∀ (page : Nat) (k : Kind) (i n : Nat), pageInfo page = some (k, i) → countsEvents k = true → s.domLive page = true → n < 8 →
        t.word (page + 0xF60 + 8 * n) = s.word (page + 0xF20 + 8 * n) ∧ t.word (page + 0xF64 + 8 * n) = s.word (page + 0xF24 + 8 * n) ∧
        t.word (page + 0xF20 + 8 * n) = s.word (page + 0xF20 + 8 * n))) ∧
  ((∀ (a : Agent) (v : Word) (s : State), Safety.Admitted s a pcPage 0x40 → bits v.toNat 31 28 = 0 → s.enabled pcPage = true →
    s.cnt.collect = none → ∃ t, exec (.counterCollect a v) s = .next t ∧ t.flag pcPage PC_CTRL_busy = true ∧
      t.cnt.collect = some ⟨s.ns, s.get64 pcPage PC_DST_LO_addr_lo PC_DST_HI_addr_hi / 64 * 64, bit v.toNat 27, none⟩ ∧
      t.host = s.host ∧ t.gddr = s.gddr ∧ t.time = s.time) ∧
  (∀ (c : Collection) (s : State), s.halted = false → s.cnt.collect = some c → c.reply = none →
    ∃ t, exec .collectionComplete s = .next t ∧ t.cnt.collect = none ∧ t.flag pcPage PC_CTRL_busy = false ∧
      bit (t.word (pcPage + 0x14)) 1 = true ∧ t.stripe = s.stripe ∧ t.spad = s.spad ∧
      (c.toGddr = false → t.gddr = s.gddr ∧
        memRead t.host c.addr (s.dumpBytes c.snapNs).length = s.dumpBytes c.snapNs ∧
        ∀ x, x < c.addr ∨ c.addr + (s.dumpBytes c.snapNs).length ≤ x → memByte t.host x = memByte s.host x) ∧
      (c.toGddr = true → s.sealed = [] → t.host = s.host ∧
        memRead t.gddr c.addr (s.dumpBytes c.snapNs).length = s.dumpBytes c.snapNs ∧
        ∀ x, x < c.addr ∨ c.addr + (s.dumpBytes c.snapNs).length ≤ x → memByte t.gddr x = memByte s.gddr x)))

/-- An admitted write of PC_CNTi_HI loads both halves: the low half written before it, or the low half as it stands. A counter that is
on, in a live domain and not frozen, of an event that is no cycle count, passes from 2^48 − 1 to 0 with its overflow bit set, and
event bit 29 where irq_en is set. (21_performance_counters.md) -/
def Obligations.CounterLoadAndWrap : Prop :=
  (∀ (a : Agent) (page : Nat) (i : Fin 8) (v : Word) (s : State), isCounting page = true → Safety.Admitted s a page (0xF24 + 8 * i) →
    ∃ t, exec (.counterLoad a page i v) s = .next t ∧
      (∀ w < 2 ^ 32, tabGet (fun _ => 0) s.cnt.heldLo (page + 0xF20 + 8 * i) = w + 1 →
        t.count48 page i = w + v.toNat % 2 ^ 16 * 2 ^ 32) ∧
      (tabGet (fun _ => 0) s.cnt.heldLo (page + 0xF20 + 8 * i) = 0 →
        t.count48 page i = s.getF page PC_CNTi_LO_cnt_lo i + v.toNat % 2 ^ 16 * 2 ^ 32) ∧
      Safety.WordsKept (fun k => k = page + 0xF20 + 8 * i ∨ k = page + 0xF24 + 8 * i) s t ∧ t.host = s.host ∧ t.gddr = s.gddr ∧
      t.stripe = s.stripe ∧ t.spad = s.spad) ∧
  (∀ (page : Nat) (i : Fin 8) (k : Kind) (u : Nat) (s : State), s.halted = false → pageInfo page = some (k, u) → countsEvents k = true →
    s.domLive page = true → s.flag pcPage PC_CTRL_frozen = false → s.flag page PC_SELi_en i = true →
    s.getF page PC_SELi_event i ≠ 0 → countsCycles k (s.getF page PC_SELi_event i) = false → s.count48 page i = 2 ^ 48 - 1 →
    ∃ t, exec (.counterWrap page i) s = .next t ∧ t.count48 page i = 0 ∧ bit (t.word (page + 0xFA0)) i = true ∧
      (s.flag page PC_SELi_irq_en i = true → bit (t.word (page + 0x14)) 29 = true) ∧ Safety.WordsKept (Safety.eventWords page) s t ∧
      Safety.rest t = Safety.rest s)

/-- An admitted write of PC_BW_CFGk clears LAST, PEAK and the count of windows and starts a window. When the window of an enabled
monitor is over, LAST is the bytes of the window in units of 64, PEAK the largest so far, the count of windows rises and event bit 2
is raised. (21_performance_counters.md) -/
def Obligations.BandwidthMonitors : Prop :=
  (∀ (a : Agent) (k : Fin 16) (v : Word) (s : State), Safety.Admitted s a pcPage (0x80 + 0x10 * k) →
    ∃ t, exec (.bwMonitorConfig a k v) s = .next t ∧ t.getF pcPage PC_BW_LASTk_units k = 0 ∧ t.getF pcPage PC_BW_PEAKk_units k = 0 ∧
      t.getF pcPage PC_BW_CNTk_windows k = 0 ∧ tabGet (fun _ => 0) t.cnt.bwBytes k = 0 ∧
      tabGet (fun _ => 0) t.cnt.bwStart k = s.time.elapsed ∧ t.flag pcPage PC_BW_CFGk_en k = bit v.toNat 31 ∧
      t.time = s.time ∧ t.host = s.host ∧ t.gddr = s.gddr) ∧
  (∀ (k : Fin 16) (s : State), s.halted = false → s.flag pcPage PC_BW_CFGk_en k = true →
    tabGet (fun _ => 0) s.cnt.bwStart k + s.getF pcPage PC_BW_CFGk_window_us k * 1000 * 2 ^ 32 ≤ s.time.elapsed →
    tabGet (fun _ => 0) s.cnt.bwBytes k / 64 < 2 ^ 32 →
    ∃ t, exec (.bwWindowEnd k) s = .next t ∧ t.getF pcPage PC_BW_LASTk_units k = tabGet (fun _ => 0) s.cnt.bwBytes k / 64 ∧
      t.getF pcPage PC_BW_PEAKk_units k = max (s.getF pcPage PC_BW_PEAKk_units k) (tabGet (fun _ => 0) s.cnt.bwBytes k / 64) ∧
      t.getF pcPage PC_BW_CNTk_windows k = (s.getF pcPage PC_BW_CNTk_windows k + 1) % 2 ^ 32 ∧
      tabGet (fun _ => 0) t.cnt.bwBytes k = 0 ∧ bit (t.word (pcPage + 0x14)) 2 = true ∧ t.time = s.time ∧ t.host = s.host ∧ t.gddr = s.gddr)

/-- With the ADC running and no run in progress, a run starts at a write of run, when the period since the last run has passed, at a
comparison further than thr_c from the last temperature, and at the first comparison in Schuss after a state that lost it: running
is shown and every monitor is stale. Outside a run a conversion stores its value and clears stale. The end of a run makes the newest
set: codes 0 to 119 derived from the wax sets at Tj, then the 64 measured ones, each clamped to its range; it shows the time, Tj and
the CRC of the 184 codes and counts the run. A unit that waits takes its codes of the newest set, and waits no more; a GDDR6 channel
in service does so at a refresh. (20_wax_calibration.md) -/
def Obligations.WaxCalibration : Prop :=
  (∀ s : State, s.flag wxPage WX_STAT_running = false → s.adcRuns = true →
    let starts := fun (c : Instr) => ∃ t, exec c s = .next t ∧ t.flag wxPage WX_STAT_running = true ∧
      (∀ k < 64, t.flag wxPage WX_MONk_stale k = true) ∧ t.wax.due = false ∧ t.wax.inForce = s.wax.inForce ∧ t.gddr = s.gddr
    (∀ (a : Agent) (v : Word), Safety.Admitted s a wxPage 0x40 → starts (.waxRunCmd a v)) ∧
    (s.halted = false →
      (∀ e, s.wax.doneAt = some e → s.getF wxPage WX_CTRL_period_min ≠ 0 →
        e + s.getF wxPage WX_CTRL_period_min * 60 * (1000000000 * 2 ^ 32) ≤ s.time.elapsed → starts .waxPeriod) ∧
      (s.wax.due = true → s.psState = 0 → starts .waxTempCompare) ∧
      (s.wax.due = false → s.getF wxPage WX_CTRL_thr_c ≠ 0 →
        10 * s.getF wxPage WX_CTRL_thr_c < (s.hottest.1 - toSigned 16 (s.getF wxPage WX_LAST_TJ_tj)).natAbs → starts .waxTempCompare) ∧
      (∀ (i : Fin 64) (value : BitVec 16), ∃ t, exec (.monitorConversion i value) s = .next t ∧
        t.getF wxPage WX_MONk_value i = value.toNat ∧ t.flag wxPage WX_MONk_stale i = false ∧
        (∀ j < 64, j ≠ i.val → t.getF wxPage WX_MONk_value j = s.getF wxPage WX_MONk_value j) ∧ Safety.rest t = Safety.rest s))) ∧
  ((∀ (tj : Int) (measured : List Int) (s : State), s.halted = false → s.flag wxPage WX_STAT_running = true → measured.length = 64 →
    let codes := ((derivedCodes s.wax.sets tj ++ measured).zipIdx 0).map fun (p : Int × Nat) => Machine.clampCode p.2 p.1
    ∃ t, exec (.waxRunComplete tj measured) s = .next t ∧ t.wax.newest = codes ∧ t.flag wxPage WX_STAT_running = false ∧
      t.getF wxPage WX_STAT_runs = min (s.getF wxPage WX_STAT_runs + 1) 65535 ∧
      t.get64 wxPage WX_LAST_LO_t_lo WX_LAST_HI_t_hi = s.ns % 2 ^ 64 ∧ t.getF wxPage WX_LAST_TJ_tj = ofSigned 16 tj ∧
      t.getF wxPage WX_CRC_crc = crc32c (codes.map (BitVec.ofNat 8)) % 2 ^ 32 ∧ t.wax.doneAt = some s.time.elapsed ∧ t.gddr = s.gddr) ∧
  (∀ (u : Nat) (s : State), s.halted = false → s.wax.waiting.contains u = true → u < 49 → s.wax.inForce.length = 184 →
    let took := fun (c : Instr) => ∃ t, exec c s = .next t ∧ t.wax.waiting = s.wax.waiting.filter (· != u) ∧
      (∀ i ∈ unitCodes u, t.wax.inForce.getD i 0 = s.wax.newest.getD i 0) ∧
      (∀ i, i ∉ unitCodes u → t.wax.inForce.getD i 0 = s.wax.inForce.getD i 0) ∧
      (s.wax.waiting.filter (· != u) = [] → bit (t.word (wxPage + 0x14)) 2 = true) ∧ t.gddr = s.gddr ∧ t.time = s.time
    took (.waxSetApply u) ∧ ∀ c : Fin 8, c.val = u → s.getF (mxCh c) MX_CH_STAT_state = 0 → took (.gddr6Refresh c)))

/-- Accepted from a ring and, but for the installation of the first owner, authorised by an owner: OWNER_INSTALL makes a free slot valid
with the hash, key and ceiling of its body; OWNER_REVOKE revokes a valid slot, erases its key and closes its sessions;
SESSION_KEY_SET replaces the key that it carries; POLICY_SET and MEM_POLICY store the policy and the choice of in-band ECC. None
changes a memory of the device. (15_security.md) -/
def Obligations.OwnerCommands : Prop :=
  ∀ (r : Fin 8) (s u : State) (f : List Byte), s.halted = false →
    (Safety.accepted s r 0x61 = some (u, f) → u.anyOwner = false → 97 ≤ (frameBody f).length → le (frameBody f) 0 1 < u.sec.slots.length →
      le (frameBody f) 0 1 ≤ 2 → (u.owner (le (frameBody f) 0 1)).state = 0 →
      ∃ t, exec (.ownerInstall r) s = .next t ∧ Safety.MemoriesKept s t ∧ t.owner (le (frameBody f) 0 1) =
        { state := 1, hash := sha256 (sub (frameBody f) 5 60), kOwner := sub (frameBody f) 65 32, ceiling := le (frameBody f) 1 4 % 64 }) ∧
    (∀ (a : Nat) (v : State), Safety.accepted s r 0x62 = some (u, f) → u.authorised r f 1 = (some a, v) →
      le (frameBody f) 0 1 < u.sec.slots.length → le (frameBody f) 0 1 ≤ 2 → (u.owner (le (frameBody f) 0 1)).state = 1 →
      u.store.xferSess = none →
      ∃ t, exec (.ownerRevoke r) s = .next t ∧ Safety.MemoriesKept s t ∧ (t.owner (le (frameBody f) 0 1)).state = 3 ∧
        (t.owner (le (frameBody f) 0 1)).kOwner = [] ∧
        ∀ i < 8, s.getF (ppSess i) PP_SESS_CTRL_slot = le (frameBody f) 0 1 → t.sessState i ≠ 1 ∧ t.sessState i ≠ 2) ∧
    (∀ (v : State) (key : List Byte), Safety.accepted s r 0x63 = some (u, f) → u.authorised r f 65 = (some (le (frameBody f) 0 1), v) →
      le (frameBody f) 0 1 < u.sec.slots.length →
      gcmDec (v.sess r).key (sub (frameBody f) 5 12) (f.take 16) (sub (frameBody f) 17 32) (sub (frameBody f) 49 16) = some key →
      ∃ t, exec (.sessionKeySet r) s = .next t ∧ Safety.MemoriesKept s t ∧ (t.owner (le (frameBody f) 0 1)).kOwner = key ∧
        (t.owner (le (frameBody f) 0 1)).ceiling = le (frameBody f) 1 4 % 64) ∧
    (∀ (a : Nat) (v : State), Safety.accepted s r 0x64 = some (u, f) → u.authorised r f 8 = (some a, v) →
      s.sec.policyCtr < le (frameBody f) 4 4 →
      ∃ t, exec (.policySet r) s = .next t ∧ Safety.MemoriesKept s t ∧ t.sec.policy = le (frameBody f) 0 4 % 4 ∧
        t.sec.policyCtr = le (frameBody f) 4 4 ∧ t.getF scPage SC_POLICY_policy = le (frameBody f) 0 4 % 4) ∧
    (∀ (a : Nat) (v : State), Safety.accepted s r 0x72 = some (u, f) → u.authorised r f 1 = (some a, v) → le (frameBody f) 0 1 ≤ 1 →
      ∃ t, exec (.memPolicy r) s = .next t ∧ Safety.MemoriesKept s t ∧ t.sec.eccOff = (le (frameBody f) 0 1 == 1))

/-- Accepted from a ring: NONCE gives the session a nonce of 32 bytes drawn now; QUOTE puts a quote of 448 bytes in the queue for the
identity key; an authorised DEBUG_UNLOCK whose fields are right, under the policy, shows the unlock with session, slot and rinks and
its end in timebase; DEBUG_LOCK, and the end of its time, end the unlock. The oldest quote that waits is signed, once a second has
passed since the latest signature: the leaf of the signature is used up and shown, and a leaf outside the reserved block first has
its block of 1,024 journaled. With the leaves used up, or a journal that fails, the quote is refused and no leaf is used.
(15_security.md) -/
def Obligations.QuotesSignaturesAndDebug : Prop :=
  (∀ (r : Fin 8) (s u : State) (f : List Byte), s.halted = false →
    (Safety.accepted s r 0x60 = some (u, f) → ∃ t nd, exec (.nonce r) s = .next t ∧ nd.length = 32 ∧
      (t.sess r).nonce = some (nd, s.time.elapsed) ∧ (t.sess r).key = (s.sess r).key ∧ Safety.MemoriesKept s t) ∧
    (Safety.accepted s r 0x65 = some (u, f) → ∃ t, exec (.quote r) s = .next t ∧
      t.sec.quotes = s.sec.quotes ++ [⟨r, u.quoteBytes r f⟩] ∧ Safety.MemoriesKept s t) ∧
    (∀ (k : Nat) (v : State), Safety.accepted s r 0x66 = some (u, f) → u.authorised r f 64 = (some k, v) → k < 3 → bit s.sec.policy 1 = true →
      (∃ e, (u.sess r).nonce = some (sub (frameBody f) 0x18 32, e)) → le (frameBody f) 0 4 = 0x54445841 → le (frameBody f) 4 2 = 1 →
      sub (frameBody f) 8 16 = s.deviceId → le (frameBody f) 0x3C 4 = 0 → 1 ≤ le (frameBody f) 0x38 4 → le (frameBody f) 0x38 4 ≤ 86400 →
      s.flag scPage SC_DBG_unlocked = false → ∃ t, exec (.debugUnlock r) s = .next t ∧ t.flag scPage SC_DBG_unlocked = true ∧
      t.getF scPage SC_DBG_session = r.val ∧ t.getF scPage SC_DBG_slot = k ∧ t.getF scPage SC_DBG_rinks = le (frameBody f) 6 2 ∧
      t.get64 scPage SC_DBG_END_LO_t_lo SC_DBG_END_HI_t_hi = (s.ns + le (frameBody f) 0x38 4 * 1000000000) % 2 ^ 64 ∧
      t.sec.dbgEver = true ∧ Safety.MemoriesKept s t) ∧
    (Safety.accepted s r 0x67 = some (u, f) → ∃ t, exec (.debugLock r) s = .next t ∧ t.flag scPage SC_DBG_unlocked = false ∧
      Safety.MemoriesKept s t) ∧
    (s.get64 scPage SC_DBG_END_LO_t_lo SC_DBG_END_HI_t_hi ≤ s.ns → ∃ t, exec .debugUnlockExpiry s = .next t ∧
      t.flag scPage SC_DBG_unlocked = false ∧ Safety.rest t = Safety.rest s)) ∧
  (∀ (ok : Bool) (q : QuoteSt) (rest : List QuoteSt) (s : State), s.halted = false → s.sec.quotes = q :: rest →
    (∀ e, s.sec.sigAt = some e → e + 1000000000 * 2 ^ 32 ≤ s.time.elapsed) →
    ∃ t, exec (.identitySignature ok) s = .next t ∧ t.sec.quotes = rest ∧ Safety.MemoriesKept s t ∧
      (s.sec.leafNext < 2 ^ 30 → s.sec.leafNext < s.sec.leafEnd → t.sec.leafNext = s.sec.leafNext + 1 ∧ t.sec.leaf = s.sec.leaf ∧
        t.sec.sigAt = some s.time.elapsed ∧ t.getF scPage SC_LEAF_next = (s.sec.leafNext + 1) % 2 ^ 30) ∧
      (s.sec.leafNext < 2 ^ 30 → s.sec.leafEnd ≤ s.sec.leafNext → ok = true → t.sec.leafNext = s.sec.leafNext + 1 ∧
        t.sec.leafEnd = s.sec.leafNext / 1024 * 1024 + 1024 ∧
        (∃ n, t.sec.leaf = some (n, s.sec.leafNext / 1024 * 1024) ∧ ∀ m, s.sec.leaf = some m → n = m.1 + 1)) ∧
      ((2 ^ 30 ≤ s.sec.leafNext ∨ (s.sec.leafEnd ≤ s.sec.leafNext ∧ ok = false)) → t.sec.leafNext = s.sec.leafNext ∧
        t.sec.leaf = s.sec.leaf ∧ t.sec.sigAt = s.sec.sigAt))

/-- An admitted open in CLOSED for a valid slot draws the challenge and takes the session to CHALLENGE; prove with the right answer
opens it with the key of R448, the rights asked for under the ceiling, and sequence 0; a wrong answer takes it to BACKOFF and
counts; close closes an open session; 10 s in CHALLENGE, and the end of the backoff, close it. (15_security.md) -/
def Obligations.Sessions : Prop :=
  ∀ (a : Agent) (i : Fin 8) (v : Word) (s : State),
    (Safety.Admitted s a (ppSess i) 0x40 → s.sessState i = 0 → bits v.toNat 1 0 ≤ 2 → (s.owner (bits v.toNat 1 0)).state = 1 →
      ∃ t, exec (.sessionOpen a i v) s = .next t ∧ t.sessState i = 1 ∧ (t.sess i).challengeAt = s.time.elapsed ∧
        t.getF (ppSess i) PP_SESS_CTRL_slot = bits v.toNat 1 0 ∧ bit (t.word (ppSess i + 0x14)) 0 = true ∧ Safety.MemoriesKept s t) ∧
    (Safety.Admitted s a (ppSess i) 0x40 → s.sessState i = 1 → bits v.toNat 1 0 = s.getF (ppSess i) PP_SESS_CTRL_slot →
      let right := (s.sess i).resp.flatMap (leBytes 4) == s.sessAnswer i && (s.owner (s.getF (ppSess i) PP_SESS_CTRL_slot)).state == 1
      ∃ t, exec (.sessionProve a i v) s = .next t ∧
        (right = true → t.sessState i = 2 ∧ t.getF (ppSess i) PP_SESS_STAT_fails = 0 ∧
          t.getF (ppSess i) PP_SESS_STAT_rights = (s.getF (ppSess i) PP_SESS_REQ_rights &&&
            (s.owner (s.getF (ppSess i) PP_SESS_CTRL_slot)).ceiling) % 64 ∧
          t.get64 (ppSess i) PP_SESS_SEQ_LO_seq_lo PP_SESS_SEQ_HI_seq_hi = 0) ∧
        (right = false → t.sessState i = 3 ∧
          t.getF (ppSess i) PP_SESS_STAT_fails = min (s.getF (ppSess i) PP_SESS_STAT_fails + 1) 31)) ∧
    (Safety.Admitted s a (ppSess i) 0x40 → s.sessState i = 2 → bits v.toNat 1 0 = s.getF (ppSess i) PP_SESS_CTRL_slot →
      ∃ t, exec (.sessionClose a i v) s = .next t ∧ t.sessState i = 0 ∧ (t.sess i).key = []) ∧
    (s.halted = false → s.sessState i = 1 → (s.sess i).challengeAt + 10 * (1000000000 * 2 ^ 32) ≤ s.time.elapsed →
      ∃ t, exec (.sessionChallengeTimeout i) s = .next t ∧ t.sessState i = 0 ∧ Safety.MemoriesKept s t) ∧
    (s.halted = false → s.sessState i = 3 → (s.sess i).backoffEnd ≤ s.time.elapsed →
      ∃ t, exec (.sessionBackoffEnd i) s = .next t ∧ t.sessState i = 0 ∧
        Safety.WordsKept (fun k => k = fldKey (ppSess i) PP_SESS_STAT_state 0) s t ∧ Safety.MemoriesKept s t)

/-- PORST_N low for at least 10 µs resets the device: every register word but SC_LEAF and SC_LEAF_RES reads its reset value, jobs,
cores, rinks, streams and sessions are gone, the timebase is 0 and the leaves go on after the reserved block; what NAND, OTP and
KEYSTATE hold, the keys of the owners and host memory stay. Low for less than 1 µs does nothing. That GDDR6 keeps its contents is
the choice of this model (log 54). (23_electrical_and_package.md, 15_security.md, 22_bring_up.md) -/
def Obligations.DeviceResetKeeps : Prop :=
  ∀ (lowNs : Nat) (s : State),
    (10000 ≤ lowNs → ∃ t, exec (.deviceReset lowNs) s = .next t ∧ t.stage = 0 ∧ t.readyReached = false ∧ t.jobs = [] ∧ t.cores = [] ∧
      t.rinks = [] ∧ t.sec.sess = [] ∧ t.keys = [] ∧ t.time.now = 0 ∧ t.stripe = [] ∧ t.spad = [] ∧ t.host = s.host ∧
      t.sec.slots = s.sec.slots ∧ t.sec.svn = s.sec.svn ∧ t.sec.policy = s.sec.policy ∧ t.store.models = s.store.models ∧
      t.store.arc = s.store.arc ∧ (∀ m, s.sec.leaf = some m → t.sec.leafNext = m.2 + 1024) ∧ t.pending = s.pending ∧
      (∀ k, k ≠ scPage + 0x60 → k ≠ scPage + 0x64 → t.word k = (regReset k).toNat)) ∧
    (lowNs < 1000 → ∃ t, exec (.deviceReset lowNs) s = .next t ∧ Safety.rest t = Safety.rest s ∧ Safety.WordsKept (fun _ => False) s t)

/-- In stage ROM, with no valid image of some type, the boot ends in stage HALT with reason 1. In stage FIRMWARE, once memory is trained
and initialised, the store is mounted or has failed to and no run is in progress, with no reset held, the device is READY: the pages
that the Puppeteer manages are enabled and SC_ is locked. An hour after firmware was entered each SVN floor rises to that of a
running image that asks for it. (15_security.md, 22_bring_up.md) -/
def Obligations.BootSteps : Prop :=
  ∀ s : State,
    (s.stage = 0 → s.link.heldReset = false → (∃ ty ∈ ([1, 2, 3, 4] : List Nat), ∀ im ∈ s.bootImages, im.type = ty → im.valid = false) →
      ∃ t, exec .bootImagesChecked s = .next t ∧ t.stage = 2 ∧ t.getF scPage SC_BOOT_STAT_reason = 1 ∧ Safety.rest t = Safety.rest s) ∧
    (s.stage = 3 → s.bringUpDone = true → s.link.heldReset = false → ∃ t, exec .bringUpReady s = .next t ∧ t.stage = 4 ∧
      t.readyReached = true ∧ (∀ p ∈ managedPages, t.flag p PG_CTRL_enable = true) ∧ t.flag scPage PG_LOCK_lock = true ∧
      t.getF scPage PG_LOCK_owner = 2 ∧ Safety.MemoriesKept s t ∧ t.host = s.host) ∧
    (∀ e, (s.stage = 3 ∨ s.stage = 4) → s.sec.fwAt = some e → e + 3600 * (1000000000 * 2 ^ 32) ≤ s.time.elapsed →
      ∃ t, exec .svnFloorRaise s = .next t ∧ t.sec.svn.length = s.sec.svn.length ∧
        (∀ (i : Nat) (im : RunImage), i < s.sec.svn.length → s.sec.images[i]? = some im →
          t.sec.svn.getD i 0 = if im.raiseFloor then max (s.sec.svn.getD i 0) im.svn else s.sec.svn.getD i 0) ∧
        Safety.WordsKept (fun _ => False) s t ∧ Safety.MemoriesKept s t)

/-- An admitted write of PX_CR_CFG, PX_VR_CFG or PX_FLT_CFG that enables a ring that was off puts its indices at 0. A write of an index
of the host that leaves an occupancy out of range is counted with cause 0x01 and the index stays; another stores it. The doorbell of
a halted device stores its index. (17_host_and_peer_links.md) -/
def Obligations.RingRegisters : Prop :=
  ∀ (a : Agent) (v : Word) (s : State),
    (∀ ring : Fin 8, Safety.Admitted s a (pxCmd ring) 0x50 → s.flag (pxCmd ring) PX_CR_CFG_en = false → bit v.toNat 31 = true →
      ∃ t, exec (.commandRingConfig a ring v) s = .next t ∧ t.getF (pxCmd ring) PX_SQ_TAIL_tail = 0 ∧ t.getF (pxCmd ring) PX_SQ_HEAD_head = 0 ∧
        t.getF (pxCmd ring) PX_CQ_TAIL_tail = 0 ∧ t.getF (pxCmd ring) PX_CQ_HEAD_head = 0 ∧ t.flag (pxCmd ring) PX_CR_CFG_en = true ∧
        Safety.rest t = Safety.rest s) ∧
    (∀ r : Fin 32, Safety.Admitted s a (pxVr r) 0x48 → s.flag (pxVr r) PX_VR_CFG_en = false → bit v.toNat 31 = true →
      ∃ t, exec (.vringConfig a r v) s = .next t ∧ t.getF (pxVr r) PX_VR_WR_blk_wr = 0 ∧ t.getF (pxVr r) PX_VR_RD_blk_rd = 0 ∧
        t.flag (pxVr r) PX_VR_CFG_en = true ∧ Safety.rest t = Safety.rest s) ∧
    (Safety.Admitted s a pxFaultPage 0x48 → s.flag pxFaultPage PX_FLT_CFG_en = false → bit v.toNat 31 = true →
      ∃ t, exec (.faultRingConfig a v) s = .next t ∧ t.getF pxFaultPage PX_FLT_IDX_wr = 0 ∧ t.getF pxFaultPage PX_FLT_IDX_rd = 0 ∧
        t.flag pxFaultPage PX_FLT_CFG_en = true ∧ Safety.rest t = Safety.rest s) ∧
    (Safety.Admitted s a pxFaultPage 0x4C →
      let used := (s.getF pxFaultPage PX_FLT_IDX_wr + 2 ^ 16 - bits v.toNat 15 0) % 2 ^ 16
      ∃ t, exec (.ringIndexWrite a pxFaultPage 0x4C v) s = .next t ∧ Safety.rest t = Safety.rest s ∧
        (used ≤ 2 ^ s.getF pxFaultPage PX_FLT_CFG_depth_log2 → t.getF pxFaultPage PX_FLT_IDX_rd = bits v.toNat 15 0) ∧
        (2 ^ s.getF pxFaultPage PX_FLT_CFG_depth_log2 < used → t.getF pxFaultPage PX_FLT_IDX_rd = s.getF pxFaultPage PX_FLT_IDX_rd ∧
          t.getF pxFaultPage PG_ERR_CNT_last_cause = 1)) ∧
    (∀ ring : Fin 8, Safety.Admitted s a (pxCmd ring) 0x54 → s.halted = true → s.psState ≠ 2 → s.psState ≠ 3 →
      (bits v.toNat 15 0 + 2 ^ 16 - s.getF (pxCmd ring) PX_SQ_HEAD_head) % 2 ^ 16 ≤ 2 ^ s.getF (pxCmd ring) PX_CR_CFG_sq_log2 →
      ∃ t, exec (.sqDoorbell a ring v) s = .next t ∧ t.getF (pxCmd ring) PX_SQ_TAIL_tail = bits v.toNat 15 0 ∧
        Safety.rest t = Safety.rest s)

/-- The loss of the link shows width 0 and raises event bit 1; its return shows generation and width. A reset of the function before
READY is held, and one of a HALTED device resets the ring pages and the MSI-X table at once. A poisoned write is counted. A frame
whose read fails stops its ring with event bit 1. (17_host_and_peer_links.md, 22_bring_up.md) -/
def Obligations.LinkEvents : Prop :=
  ∀ s : State,
    (s.link.up = true → ∃ t, exec .linkDown s = .next t ∧ t.link.up = false ∧ t.getF pxCommonPage PX_LINK_gen = 0 ∧
      t.getF pxCommonPage PX_LINK_width = 0 ∧ bit (t.word (pxCommonPage + 0x14)) 1 = true ∧ Safety.MemoriesKept s t ∧ t.host = s.host) ∧
    (∀ (gen : Fin 6) (w : BitVec 8), s.link.up = false → 1 ≤ gen.val → w.toNat ∈ ([1, 2, 4, 8] : List Nat) →
      ∃ t, exec (.linkUp gen w) s = .next t ∧ t.link.up = true ∧ t.getF pxCommonPage PX_LINK_gen = gen.val ∧
        t.getF pxCommonPage PX_LINK_width = w.toNat ∧ bit (t.word (pxCommonPage + 0x14)) 0 = true ∧ Safety.MemoriesKept s t) ∧
    ((s.stage = 0 ∨ s.stage = 3) → ∃ t, exec (.functionReset false) s = .next t ∧ t.link.heldReset = true ∧
      Safety.WordsKept (fun _ => False) s t ∧ Safety.MemoriesKept s t) ∧
    (s.stage = 5 → ∃ t, exec (.functionReset false) s = .next t ∧ t.vrings = [] ∧ t.link.heldReset = false ∧
      (∀ k, bar4 ≤ k → t.word k = (regReset k).toNat) ∧ (∀ h ∈ t.link.held, h.dropped = true) ∧ Safety.MemoriesKept s t) ∧
    (s.psState ≠ 4 → s.psState ≠ 5 → ∃ t, exec .poisonedWrite s = .next t ∧ t.link.aerPoisoned = s.link.aerPoisoned + 1 ∧
      Safety.WordsKept (fun _ => False) s t ∧ Safety.MemoriesKept s t ∧ t.host = s.host) ∧
    (∀ (r : Fin 8) (f : List Byte), s.halted = false → s.frameAt r = some f → ∃ t, exec (.frameReadFail r) s = .next t ∧
      t.flag (pxCmd r) PX_CR_CFG_en = false ∧ bit (t.word (pxCmd r + 0x14)) 1 = true ∧ Safety.rest t = Safety.rest s)

/-- An admitted write of enable = 1 to a stopped stream that passes the tests of R62 and R103 starts it: it takes the words of its
configuration, every one of its buffers is free and cfg_err is 0; one that fails a test keeps the stream stopped, shows the lowest
reason in cfg_err and is counted with cause 0x08. A write of enable = 0 to a running stream stops it; a stripe open at that time is
closed and handed over. (03_stream_ingest.md) -/
def Obligations.StreamEnables : Prop :=
  ∀ (a : Agent) (k : Fin 32) (v : Word) (s : State), Safety.Admitted s a (feStrm k) 0xC → bit v.toNat 1 = false →
    ((s.strm k).cfg = none → s.enableReason k = 0 →
      ∃ t, exec (.streamEnable a k v) s = .next t ∧ t.flag (feStrm k) PG_CTRL_enable = true ∧ t.getF (feStrm k) FE_STRM_STAT_cfg_err = 0 ∧
        (t.strm k).cfg = some ⟨s.word (feStrm k + 0x40), s.word (feStrm k + 0x44), s.word (feStrm k + 0x48), s.word (feStrm k + 0x50),
          s.word (feStrm k + 0x54)⟩ ∧ (t.strm k).opened = [] ∧ (t.strm k).free = List.range (bufCount (s.word (feStrm k + 0x54))) ∧
        t.getF (feStrm k) FE_STRM_STAT_free_bufs = bufCount (s.word (feStrm k + 0x54)) ∧ Safety.MemoriesKept s t ∧ t.host = s.host) ∧
    ((s.strm k).cfg = none → s.enableReason k ≠ 0 →
      ∃ t, exec (.streamEnable a k v) s = .next t ∧ t.flag (feStrm k) PG_CTRL_enable = s.flag (feStrm k) PG_CTRL_enable ∧
        t.getF (feStrm k) FE_STRM_STAT_cfg_err = s.enableReason k ∧ t.getF (feStrm k) PG_ERR_CNT_last_cause = 8 ∧
        Safety.rest t = Safety.rest s) ∧
    (∀ c, (s.strm k).cfg = some c →
      ∃ t, exec (.streamDisable a k v) s = .next t ∧ t.flag (feStrm k) PG_CTRL_enable = false ∧ (t.strm k).cfg = none ∧
        ((s.strm k).opened = [] → Safety.MemoriesKept s t ∧ t.host = s.host ∧ t.fe.handed = s.fe.handed) ∧
        ∀ o b, (s.strm k).opened = [o] → o.buf = some b → s.jobsNaming k ≠ [] →
          ∃ i, t.fe.handed = s.fe.handed ++ [i] ∧ i.stream = k.val ∧ i.seq = o.seq ∧ i.lost = false ∧ i.buf = b)

/-- A long packet that the port receives whole, that matches the running stream of its port and virtual channel and that brings just
line_px pixels in each channel, for a row of the open stripe other than its last: the stream counts the line, the row is present,
its line record holds the stamp, the position, line_px and no flag but the first line of a frame, and every byte of stripe memory
outside the record and the samples of the row is as before. A packet whose header cannot be corrected is counted and dropped.
(03_stream_ingest.md) -/
def Obligations.LongPackets : Prop :=
  ∀ (p : Fin 8) (vc : Fin 16) (dt : BitVec 6) (payload : List Byte) (s : State), s.portOn p = true →
    (∀ (k : Nat) (c : StrmCfg) (o : OpenStripe) (b row : Nat) (f : Nat), k < 32 → s.streamsOn p vc = [k] → (s.strm k).cfg = some c →
      bits c.ctrl 13 8 = dt.toNat → bits c.ctrl 21 20 ≠ 1 → (s.strm k).opened = [o] → o.buf = some b → (s.strm k).realign = false →
      (s.strm k).idxOff = 0 → (s.strm k).count = o.idx * geomH c.geom + row → row + 1 < geomH c.geom → (s.strm k).firstIdx = some f →
      f ≤ o.idx → (s.strm k).closedSet.contains o.idx = false → (s.strm k).lostSet.contains o.idx = false →
      (unpack dt.toNat payload).length = storeChans c.store * geomPx c.geom →
      let base := bufAddr c.geom c.store c.buf b
      let h := geomH c.geom
      let pitch := linePitch (geomPx c.geom) (storeFmt c.store)
      ∃ t, exec (.longPacket p vc dt payload false false none) s = .next t ∧ (t.strm k).count = (s.strm k).count + 1 ∧
        (∃ o', (t.strm k).opened = [o'] ∧ o'.idx = o.idx ∧ o'.seq = o.seq ∧ o'.rows = row :: o.rows.filter (· != row)) ∧
        memRead t.stripe (base + 256 + 16 * row) 16 =
          lineRecord (ofSigned 64 ((s.ns : Int) + toSigned 16 (s.getF (feStrm k) FE_STRM_TOFF_toff_ns))) (s.encField c) (geomPx c.geom)
            (b01 (s.strm k).firstLine * 32) ∧
        (∀ x, (x < base + 256 + 16 * row ∨ base + 256 + 16 * row + 16 ≤ x) →
          (∀ pl < storeChans c.store, x < base + 256 + 16 * h + pl * h * pitch + row * pitch ∨
            base + 256 + 16 * h + pl * h * pitch + row * pitch + geomPx c.geom * sampleBytes (storeFmt c.store) ≤ x) →
          memByte t.stripe x = memByte s.stripe x) ∧
        t.host = s.host ∧ t.gddr = s.gddr ∧ t.spad = s.spad) ∧
    (∃ t, exec (.longPacket p vc dt payload true false none) s = .next t ∧
      t.getF (fePort p) FE_PORT_ERR_hdr_cnt = min (s.getF (fePort p) FE_PORT_ERR_hdr_cnt + 1) 65535 ∧
      bit (t.word (fePort p + 0x14)) 1 = true ∧ t.fe = s.fe ∧ Safety.MemoriesKept s t)

/-- A port that receives takes every packet as the sign that its lanes are synchronised. A Line Start gives its number to the streams of
its virtual channel; a Line End does nothing more. A Frame Start with no frame open in a stream without frame_align begins a frame
of 0 lines; a Frame End of a frame with the configured number of lines ends it. A lane in use that loses synchronisation shows 0 and
raises event bit 0 of its port. (03_stream_ingest.md) -/
def Obligations.ShortPackets : Prop :=
  ∀ (p : Fin 8) (vc : Fin 16) (s : State), s.portOn p = true →
    (∀ num : BitVec 16, ∃ t, exec (.lineStart p vc num false) s = .next t ∧
      (∀ k ∈ s.streamsOn p vc, (t.strm k).lineNo = some num.toNat) ∧
      (∀ k, k ∉ s.streamsOn p vc → t.strm k = s.strm k) ∧ Safety.MemoriesKept s t ∧ t.host = s.host) ∧
    (∃ t, exec (.lineEnd p false) s = .next t ∧ (∀ l ∈ s.lanesInUse p, bit (t.getF (fePort p) FE_PORT_STAT_lane_sync) l = true) ∧
      Safety.rest t = Safety.rest s ∧ Safety.WordsKept (fun k => k = fePort p + 0x48) s t) ∧
    (∃ t, exec (.lineEnd p true) s = .next t ∧ bit (t.word (fePort p + 0x14)) 1 = true ∧
      t.getF (fePort p) FE_PORT_ERR_hdr_cnt = min (s.getF (fePort p) FE_PORT_ERR_hdr_cnt + 1) 65535 ∧ t.fe = s.fe ∧
      Safety.MemoriesKept s t) ∧
    (∀ (k : Nat) (c : StrmCfg), s.streamsOn p vc = [k] → (s.strm k).cfg = some c →
      ((s.strm k).framePkt ≠ 1 → bit c.ctrl 19 = false → ∃ t, exec (.frameStart p vc false) s = .next t ∧
        t.strm k = { s.strm k with framePkt := 1, frameLines := 0, firstLine := true } ∧ Safety.MemoriesKept s t ∧ t.host = s.host) ∧
      ((s.strm k).framePkt = 1 → (bits c.frame 15 0 = 0 ∨ (s.strm k).frameLines = bits c.frame 15 0) →
        ∃ t, exec (.frameEnd p vc false) s = .next t ∧ t.strm k = { s.strm k with framePkt := 2 } ∧ Safety.MemoriesKept s t ∧
          t.host = s.host) ∧
      ((s.strm k).framePkt = 2 → ∃ t, exec (.frameEnd p vc false) s = .next t ∧ (t.strm k).framePkt = 2 ∧
        bit (t.word (feStrm k + 0x14)) 4 = true ∧ Safety.MemoriesKept s t)) ∧
    (∀ lane : Fin 4, (s.lanesInUse p).contains lane.val = true → ∃ t, exec (.dphySync p lane) s = .next t ∧
      bit (t.getF (fePort p) FE_PORT_STAT_lane_sync) lane = false ∧ bit (t.word (fePort p + 0x14)) 0 = true ∧
      (∀ l < 4, l ≠ lane.val → bit (t.getF (fePort p) FE_PORT_STAT_lane_sync) l = bit (s.getF (fePort p) FE_PORT_STAT_lane_sync) l) ∧
      t.fe = s.fe ∧ Safety.MemoriesKept s t)

/-- An open stripe whose close deadline has passed is closed: its header is in its buffer with the deadline flag, FE_STRM_SEQ shows its
number and event bit 0 is raised. A member stripe for which all of R316 holds gives its buffer back. A table load within stripe
memory shows busy; when it is complete the units stand at their place, every other byte of stripe memory is as before and event bit
0 is raised, or, after a bus error, the units before it alone, with err and event bit 1. (03_stream_ingest.md,
04_classical_front_end.md, 10_slalom_schedule_and_verdicts.md) -/
def Obligations.StripesAndTables : Prop :=
  (∀ (k : Fin 32) (c : StrmCfg) (o : OpenStripe) (b d : Nat) (s : State), s.halted = false → (s.strm k).cfg = some c → (s.strm k).opened = [o] →
    o.buf = some b → s.deadline k c o = some d → d ≤ s.ns →
    let base := bufAddr c.geom c.store c.buf b
    ∃ t, exec (.closeDeadline k) s = .next t ∧ (t.strm k).opened = [] ∧ (t.strm k).closedSet = o.idx :: (s.strm k).closedSet ∧
      t.getF (feStrm k) FE_STRM_SEQ_seq = o.seq % 2 ^ 32 ∧ bit (t.word (feStrm k + 0x14)) 0 = true ∧
      memRead t.stripe base 4 = leBytes 4 o.seq ∧ bit (leNat (memRead t.stripe (base + 28) 2)) 0 = true ∧ t.spad = s.spad) ∧
  (∀ (j : Fin 4) (k : Fin 32) (seq : Word) (x : JobSt) (st : SetSt) (m : Member) (s : State), s.halted = false → s.jobs = [(j.val, some x)] →
    x.sets = [st] → st.members = [m] → m.held = true → m.info.lost = false → m.info.stream = k.val → m.info.seq = seq.toNat →
    s.fe.handed = [] → (s.strm k).opened = [] → s.mayRelease x st m = true →
    ∃ t, exec (.stripeRelease j k seq) s = .next t ∧ (t.strm k).free.contains m.info.buf = true ∧ Safety.MemoriesKept s t ∧
      t.host = s.host ∧ ((s.strm k).free.contains m.info.buf = false →
        t.getF (feStrm k) FE_STRM_STAT_free_bufs = ((s.strm k).free.length + 1) % 16)) ∧
  (∀ (a : Agent) (v : Word) (s : State), Safety.Admitted s a feCommonPage 0x48 → s.flag feCommonPage FE_TLD_STAT_busy = false →
    s.enabled feCommonPage = true → bits v.toNat 13 0 + bits v.toNat 27 14 ≤ 16384 →
    ∃ t, exec (.tableLoad a v) s = .next t ∧ t.flag feCommonPage FE_TLD_STAT_busy = true ∧ t.flag feCommonPage FE_TLD_STAT_err = false ∧
      t.fe.tld = some ⟨s.get64 feCommonPage FE_TLD_SRC_LO_addr_lo FE_TLD_SRC_HI_addr_hi / 4096 * 4096, bit v.toNat 30, bits v.toNat 27 14,
        bits v.toNat 13 0⟩ ∧ Safety.MemoriesKept s t ∧ t.host = s.host) ∧
  (∀ (l : TableCopy) (s : State), s.halted = false → s.fe.tld = some l → l.fromGddr = false →
    let copied := fun (n : Nat) (t : State) => memRead t.stripe (l.dst * 4096) (n * 4096) = memRead s.host l.src (n * 4096) ∧
      (∀ x, x < l.dst * 4096 ∨ l.dst * 4096 + n * 4096 ≤ x → memByte t.stripe x = memByte s.stripe x) ∧
      t.flag feCommonPage FE_TLD_STAT_busy = false ∧ t.fe.tld = none ∧ t.host = s.host ∧ t.gddr = s.gddr
    (∃ t, exec (.tableLoadComplete none) s = .next t ∧ copied l.units t ∧ bit (t.word (feCommonPage + 0x14)) 0 = true) ∧
    ∀ u < l.units, ∃ t, exec (.tableLoadComplete (some u)) s = .next t ∧ copied u t ∧ bit (t.word (feCommonPage + 0x14)) 1 = true ∧
      t.flag feCommonPage FE_TLD_STAT_err = true)

/-- An admitted write that sets run of a stopped core of an enabled page starts it at start_pc with both loop counters 0. A step of a
stopped core issues the one instruction at pc. clr_cnt clears the counts and the row-miss table. A write of CR_DATA to a half of an
instruction of a stopped core changes that entry alone. Arming the inverter shows arm. (07_loop_nests_and_tiling.md, 06_core.md) -/
def Obligations.CoreRegisterCommands : Prop :=
  ∀ (a : Agent) (k : Fin 128) (v : Word) (s : State),
    (Safety.Admitted s a (cr k) 0x40 → s.enabled (cr k) = true →
      (s.flag (cr k) CR_SEQ_CTRL_run = false → ∃ t, exec (.seqRun a k v) s = .next t ∧ t.flag (cr k) CR_SEQ_CTRL_run = true ∧
        t.getF (cr k) CR_SEQ_STAT_pc = bits v.toNat 15 8 ∧ t.flag (cr k) CR_SEQ_STAT_halted = false ∧ (t.core k).loop0 = 0 ∧
        (t.core k).loop1 = 0 ∧ (t.core k).imem = (s.core k).imem ∧ Safety.MemoriesKept s t ∧ t.host = s.host) ∧
      (s.flag (cr k) CR_SEQ_CTRL_run = false → bit v.toNat 0 = false → s.instrAt k = 0 → ∃ t, exec (.seqStep a k v) s = .next t ∧
        t.flag (cr k) CR_SEQ_CTRL_run = false ∧ t.getF (cr k) CR_SEQ_STAT_pc = (s.getF (cr k) CR_SEQ_STAT_pc + 1) % 256 ∧
        Safety.MemoriesKept s t ∧ t.host = s.host) ∧
      (bit v.toNat 0 = false → bit v.toNat 1 = false → ∃ t, exec (.clrCnt a k v) s = .next t ∧ t.word (cr k + 0x60) = 0 ∧
        t.word (cr k + 0x64) = 0 ∧ t.word (cr k + 0x68) = 0 ∧ (t.core k).rowMiss = [] ∧ (t.core k).imem = (s.core k).imem ∧
        Safety.MemoriesKept s t ∧ t.host = s.host)) ∧
    (Safety.Admitted s a (cr k) 0x7C → s.flag (cr k) CR_SEQ_CTRL_run = false → s.getF (cr k) CR_IDX_table < 2 →
      s.getF (cr k) CR_IDX_index < 256 →
      let i := s.getF (cr k) CR_IDX_index
      let lo := 32 * s.getF (cr k) CR_IDX_table
      ∃ t, exec (.crDataWrite a k v) s = .next t ∧
        tabGet (fun _ => 0) (t.core k).imem i = setBits (tabGet (fun _ => 0) (s.core k).imem i) (lo + 31) lo v.toNat ∧
        (∀ j, j ≠ i → tabGet (fun _ => 0) (t.core k).imem j = tabGet (fun _ => 0) (s.core k).imem j) ∧
        t.getF (cr k) CR_IDX_index = (if s.flag (cr k) CR_IDX_auto_inc then (i + 1) % 256 else i) ∧ Safety.MemoriesKept s t ∧
        t.host = s.host) ∧
    (Safety.Admitted s a (cr k) 0x70 → ∃ t, exec (.resInject a k v) s = .next t ∧ t.flag (cr k) CR_RES_INJECT_arm = true ∧
      t.getF (cr k) CR_RES_INJECT_column = bits v.toNat 4 0 ∧ Safety.rest t = Safety.rest s)

/-- On a running core, NOP, SEM and FENCE (of idle units) advance pc by 1; with a wait they take one from a semaphore whose count is not
0, and wait without effect where it is 0; with a post they add one to a semaphore below its limit. LOOP loads its counter at 0 or
counts it down, and goes back by its distance unless the counter has come to 0. (07_loop_nests_and_tiling.md,
09_rinks_and_the_grid.md) -/
def Obligations.PlainInstructions : Prop :=
  ∀ (k : Fin 128) (s : State), s.halted = false → s.flag (cr k) CR_SEQ_CTRL_run = true →
    let w := s.instrAt k
    let pc := s.getF (cr k) CR_SEQ_STAT_pc
    let n := k.val / 8
    (∀ c ∈ ([.nop k, .sem k, .fence k] : List Instr),
      (c = .nop k ∧ iOp w = 0 ∨ c = .sem k ∧ iOp w = 2 ∨ c = .fence k ∧ iOp w = 3 ∧ s.busyBits k &&& iArg w % 32 = 0) →
      (iWaitEn w = false → iPostEn w = false → ∃ t, exec c s = .next t ∧ t.getF (cr k) CR_SEQ_STAT_pc = (pc + 1) % 256 ∧
        Safety.rest t = Safety.rest s) ∧
      (iWaitEn w = true → iPostEn w = false → s.semLimit n (iWaitSem w) ≠ 0 →
        (s.semCount n (iWaitSem w) ≠ 0 → ∃ t, exec c s = .next t ∧ t.getF (cr k) CR_SEQ_STAT_pc = (pc + 1) % 256 ∧
          t.semCount n (iWaitSem w) = s.semCount n (iWaitSem w) - 1 ∧ Safety.MemoriesKept s t ∧ t.host = s.host ∧ t.cores = s.cores) ∧
        (s.semCount n (iWaitSem w) = 0 → ∃ t, exec c s = .next t ∧ Safety.rest t = Safety.rest s ∧
          Safety.WordsKept (fun _ => False) s t)) ∧
      (iWaitEn w = false → iPostEn w = true → s.semCount n (iPostSem w) < s.semLimit n (iPostSem w) →
        ∃ t, exec c s = .next t ∧ t.getF (cr k) CR_SEQ_STAT_pc = (pc + 1) % 256 ∧
          t.semCount n (iPostSem w) = s.semCount n (iPostSem w) + 1 ∧ Safety.rest t = Safety.rest s)) ∧
    (iOp w = 4 → iWaitEn w = false → iPostEn w = false →
      let c := if loopCtr w = 0 then (s.core k).loop0 else (s.core k).loop1
      let c' := if c = 0 then loopCount w else c - 1
      ∃ t, exec (.loop k) s = .next t ∧ (if loopCtr w = 0 then (t.core k).loop0 else (t.core k).loop1) = c' ∧
        (if loopCtr w = 0 then (t.core k).loop1 = (s.core k).loop1 else (t.core k).loop0 = (s.core k).loop0) ∧
        (c' = 0 → t.getF (cr k) CR_SEQ_STAT_pc = (pc + 1) % 256) ∧
        (c' ≠ 0 → t.getF (cr k) CR_SEQ_STAT_pc = (pc + 256 - loopDist w) % 256) ∧ Safety.MemoriesKept s t ∧ t.host = s.host)

/-- With every unit of the core idle, CELL_END ends the cell: the count of cells rises, the loop counters and the signature start again,
pc is start_pc and event bit 1 is raised; HALT clears run, shows halted and raises event bit 0. OP, with no operator in the core, of
an operator that passes the checks of its issue with extents that are neither 0 nor beyond their bounds, makes it the current
operator with the extents and the record of its cell. (07_loop_nests_and_tiling.md, 09_rinks_and_the_grid.md) -/
def Obligations.CellEndHaltAndOp : Prop :=
  ∀ (k : Fin 128) (s : State), s.halted = false → s.flag (cr k) CR_SEQ_CTRL_run = true → iWaitEn (s.instrAt k) = false →
    let w := s.instrAt k
    let pc := s.getF (cr k) CR_SEQ_STAT_pc
    (iPostEn w = false → s.unitsIdle k = true →
      (iOp w = 5 → ∃ t, exec (.cellEnd k) s = .next t ∧ (t.core k).ends = (s.core k).ends + 1 ∧ (t.core k).crc = 0xFFFFFFFF ∧
        (t.core k).loop0 = 0 ∧ (t.core k).loop1 = 0 ∧ t.getF (cr k) CR_SEQ_STAT_pc = s.getF (cr k) CR_SEQ_CTRL_start_pc ∧
        bit (t.word (cr k + 0x14)) 1 = true ∧ Safety.MemoriesKept s t ∧ t.host = s.host) ∧
      (iOp w = 6 → ∃ t, exec (.halt k) s = .next t ∧ t.flag (cr k) CR_SEQ_CTRL_run = false ∧ t.flag (cr k) CR_SEQ_STAT_halted = true ∧
        t.getF (cr k) CR_SEQ_STAT_pc = (pc + 1) % 256 ∧ bit (t.word (cr k + 0x14)) 0 = true ∧ (t.core k).loop0 = 0 ∧
        (t.core k).loop1 = 0 ∧ Safety.MemoriesKept s t ∧ t.host = s.host)) ∧
    (let o := parseOper (s.spadReader (k.val / 8)) (iArg w % 2 ^ 17)
     let r := s.heldRec k
     iOp w = 1 → (s.core k).cur = none → (s.core k).drain = none → o.isPair = false → s.emptied k r = false →
      State.emptyOutput o r.width (geomH r.geom) = false → State.issueCheck o none (s.fahead k) r.width (geomH r.geom) = 0 →
      State.emptyExtent o (s.extents k o r.width (geomH r.geom)) = false →
      State.beyondBound o (s.extents k o r.width (geomH r.geom)) = false →
      ∃ t p, exec (.op k) s = .next t ∧ (t.core k).cur = some p ∧ p.desc = iArg w % 2 ^ 17 ∧ p.o = o ∧ p.rcd = r ∧
        p.recNo = (s.core k).ends ∧ p.ext = s.extents k o r.width (geomH r.geom) ∧
        p.post = (if iPostEn w then some (iPostSem w) else none) ∧ p.walked = false ∧ p.accs = [] ∧ p.arr = [] ∧
        t.getF (cr k) CR_SEQ_STAT_pc = (pc + 1) % 256 ∧ t.flag (cr k) CR_OP_CUR_valid = true ∧ Safety.MemoriesKept s t ∧
        t.host = s.host)

/-- A T0 tile of the visit in progress whose output has an accumulator tile enters the array and is counted. The oldest tile in the
array, with no bit inverted, adds its sums to its accumulator tile, leaves the array and shows no residue. The drain path takes a
tile that may drain: its accumulator tiles are free. An operator that is finished leaves the drain path, writes the summary that it
makes and posts its semaphore. (06_core.md, 07_loop_nests_and_tiling.md, 08_image_operators.md) -/
def Obligations.ArrayTiles : Prop :=
  ∀ (k : Fin 128) (p : OpSt) (s : State), s.halted = false →
    (∀ (vi : Nat) (v : Visit) (x : Step0) (a : AccTile), (s.core k).cur = some p → p.walked = false → p.visit = some vi →
      p.visits[vi]? = some v → v.steps[p.step]? = some x → (p.oper v.phase).onRowUnit = false →
      (p.oper v.phase).isArgmax = false → (p.oper v.phase).isRowFn = false →
      p.accs.find? (fun b => b.phase == v.phase && b.oc == x.start.at' dOC && b.ox == x.start.at' dOX && b.oy == x.start.at' dOY && b.el == x.el) =
        some a →
      (s.weightColumns k p v x (p.slotAddr v.phase true ((OpSt.slotOf p.wt1 v.wt1).getD 0))).2 = false →
      ∃ t, exec (.t0TileIssue k) s = .next t ∧ t.getF (cr k) CR_WALK_CNT_t0_issued = (s.getF (cr k) CR_WALK_CNT_t0_issued + 1) % 2 ^ 32 ∧
        (∃ q ∈ t.ops k, q.desc = p.desc ∧ q.arr.length = p.arr.length + 1) ∧ Safety.MemoriesKept s t) ∧
    (∀ (x : ArrTile) (rest : List ArrTile) (a : AccTile), (s.core k).cur = some p → (s.core k).drain = none → p.arr = x :: rest →
      p.accs.find? (fun b => b.num == x.acc) = some a → s.flag (cr k) CR_RES_INJECT_arm = false →
      ∃ t, exec (.t0TileComplete k []) s = .next t ∧
        (t.core k).cur = some { p.setTile { a with added := a.added + 1 } with arr := rest } ∧
        t.word (cr k + 0x6C) = s.word (cr k + 0x6C) ∧ Safety.MemoriesKept s t) ∧
    (∀ a : AccTile, (s.core k).drain = some p → State.blockReady p = false → p.accs.find? (State.drainable p) = some a →
      ∃ t q, exec (.accTileDrain k) s = .next t ∧ (t.core k).drain = some q ∧ q.desc = p.desc ∧
        q.accs = p.accs.filter (fun b => !((State.outTiles p a).map (·.num)).contains b.num) ∧ t.gddr = s.gddr ∧ t.stripe = s.stripe) ∧
    (∀ x : Nat, (s.core k).cur = none → (s.core k).drain = some p → State.finished p = true → p.post = some x → x < 64 →
      s.semCount (k.val / 8) x < s.semLimit (k.val / 8) x →
      ∃ t, exec (.opComplete k) s = .next t ∧ (t.core k).drain = none ∧ t.flag (cr k) CR_OP_DRAIN_valid = false ∧
        t.semCount (k.val / 8) x = s.semCount (k.val / 8) x + 1 ∧ t.gddr = s.gddr ∧ t.stripe = s.stripe ∧ t.host = s.host ∧
        ((p.o.isArgmax && p.o.summary && !p.early) = true →
          memRead t.spad (k.val / 8 * 2 ^ 23 + p.o.d.aux % 2 ^ 23) (State.summaryOf p.o p.pix).length = State.summaryOf p.o p.pix) ∧
        ((p.o.isArgmax && p.o.summary && !p.early) = false → t.spad = s.spad))

/-- A rink in LOAD runs: every semaphore has the count and limit of the group table, the cores of the group run from their start, and
event bit 0 is raised. A rink in DRAIN with every unit idle loads the next group, or the next round of the set, or is done with the
set with event bit 1. The input copy takes a semaphore, moves the next cell into the input area, nothing else of the scratchpad, and
posts. The carry mover tags the slot of the cell that it has moved. (09_rinks_and_the_grid.md) -/
def Obligations.RinkPhases : Prop :=
  ∀ (n : Fin 16) (s : State), s.halted = false →
    (s.rkState n = 1 → ∃ t, exec (.groupLoaded n) s = .next t ∧ t.rkState n = 2 ∧ bit (t.word (rk n + 0x14)) 0 = true ∧
      (∀ x < 64, t.semCount n x = (memByte s.spad (n * 2 ^ 23 + ((s.group n).semTbl + x))).toNat ∧
        t.semLimit n x = (memByte s.spad (n * 2 ^ 23 + ((s.group n).semTbl + 64 + x))).toNat) ∧
      (∀ (c : Nat) (r : StageRef), c < 8 → (s.group n).has c = true → (s.group n).stages[c]? = some r →
        t.flag (cr (8 * n + c)) CR_SEQ_CTRL_run = true ∧ t.getF (cr (8 * n + c)) CR_SEQ_STAT_pc = r.start % 256 ∧
        (t.core (8 * n + c)).ends = 0 ∧ (t.core (8 * n + c)).loop0 = 0 ∧ (t.core (8 * n + c)).loop1 = 0) ∧
      (t.rink n).resident = some (s.groupNo n) ∧ Safety.MemoriesKept s t ∧ t.host = s.host) ∧
    (s.rkState n = 3 → s.rinkIdle n = true →
      (s.groupNo n + 1 < (s.prog n).nGroups → ∃ t, exec (.rinkDrainDone n) s = .next t ∧ t.rkState n = 1 ∧
        t.groupNo n = (s.groupNo n + 1) % 16 ∧ Safety.rest t = Safety.rest s) ∧
      ((s.prog n).nGroups ≤ s.groupNo n + 1 → (s.rink n).before + s.roundCells n < (s.rink n).total →
        ∃ t, exec (.rinkDrainDone n) s = .next t ∧ t.rkState n = 1 ∧ t.groupNo n = 0 ∧
          (t.rink n).recs = (s.rink n).recs.drop (s.roundCells n) ∧ (t.rink n).before = (s.rink n).before + s.roundCells n ∧
          Safety.MemoriesKept s t ∧ t.host = s.host) ∧
      ((s.prog n).nGroups ≤ s.groupNo n + 1 → (s.rink n).total ≤ (s.rink n).before + s.roundCells n →
        (s.rink n).recs.drop (s.roundCells n) = [] → ∃ t, exec (.rinkDrainDone n) s = .next t ∧ t.rkState n = 4 ∧
          (t.rink n).set = none ∧ (t.rink n).recs = [] ∧ bit (t.word (rk n + 0x14)) 1 = true ∧ Safety.MemoriesKept s t ∧
          t.host = s.host)) ∧
    (∀ c : CellRec,
      let p := s.prog n
      let k := (s.rink n).copies
      let at' := fun (ch r : Nat) => n.val * 2 ^ 23 + (p.inArea + k % p.inNbuf * p.inStride + ch * p.inPc + r * p.inPr) % 2 ^ 23
      s.rkState n = 2 → s.groupNo n = 0 → (s.rink n).recs[k]? = some c → (s.rink n).set = some c.set → k < s.roundCells n →
      (s.lift n).length < 6 → p.freeSem ≠ p.fullSem → p.freeSem < 64 → p.fullSem < 64 → s.semCount n p.freeSem ≠ 0 →
      s.semLimit n p.freeSem ≠ 0 → s.semCount n p.fullSem < s.semLimit n p.fullSem → c.valid ≤ c.width →
      ∃ t, exec (.inputCopy n) s = .next t ∧ (t.rink n).copies = k + 1 ∧
        t.semCount n p.freeSem = s.semCount n p.freeSem - 1 ∧ t.semCount n p.fullSem = s.semCount n p.fullSem + 1 ∧
        (∀ x, (∀ ch < storeChans c.store, ∀ r < geomH c.geom, x < at' ch r ∨ at' ch r + c.width * sampleBytes (storeFmt c.store) ≤ x) →
          memByte t.spad x = memByte s.spad x) ∧
        t.stripe = s.stripe ∧ t.gddr = s.gddr ∧ t.host = s.host) ∧
    (∀ (x : CarryEnt) (c : CellRec),
      let k := (s.rink n).carry.getD 0 0
      let slot := x.store + c.pos * (ru64 (x.c * x.planes * x.rowBytes) + 64)
      (s.rkState n = 2 ∨ s.rkState n = 3) → (s.group n).carries = [x] → k < s.roundCells n → (s.rink n).recs[k]? = some c →
      (s.rink n).carry.length = 8 → x.inSem ≠ x.outSem → x.inSem < 64 → x.outSem < 64 → s.semCount n x.inSem ≠ 0 → s.semLimit n x.inSem ≠ 0 →
      s.semCount n x.outSem < s.semLimit n x.outSem →
      ∃ t, exec (.carryMove n) s = .next t ∧ (t.rink n).carry.getD 0 0 = k + 1 ∧
        t.semCount n x.inSem = s.semCount n x.inSem - 1 ∧ t.semCount n x.outSem = s.semCount n x.outSem + 1 ∧
        memRead t.spad (n.val * 2 ^ 23 + slot) 8 = leBytes 4 c.seq ++ leBytes 1 c.stream ++ leBytes 1 c.plan ++ leBytes 1 0 ++ leBytes 1 1 ∧
        t.stripe = s.stripe ∧ t.gddr = s.gddr ∧ t.host = s.host)

/-- For the one halo entry of a group: a cell without neighbours has both margins filled and its semaphore posted; for a neighbour on
the right the edge columns start to it and a credit is used. Columns that a margin waits for are held; columns that no cell of the
rink is for are counted late and their credit goes back. A credit that returns is counted up to 2. Once the gate of a cell has
passed, each margin whose columns have not come is filled, counted as timed out, and the cell is flagged. (09_rinks_and_the_grid.md) -/
def Obligations.HaloExchange : Prop :=
  ∀ (n : Fin 16) (x : HaloEnt) (c : CellRec) (s : State), s.halted = false → (s.rkState n = 2 ∨ s.rkState n = 3) →
    let k := (s.haloPos n 0).done
    (s.group n).halos = [x] → (s.rink n).halo.length = 8 → (s.rink n).recs[k]? = some c → x.inSem ≠ x.outSem → x.inSem < 64 →
    x.outSem < 64 →
    ((s.haloPos n 0).begun = false → (s.haloPos n 0).sentL = false → (s.haloPos n 0).sentR = false → (s.haloPos n 0).doneL = false →
      (s.haloPos n 0).doneR = false → k < s.roundCells n → s.semCount n x.inSem ≠ 0 → s.semLimit n x.inSem ≠ 0 → (nbr c false).1 = false →
      ((nbr c true).1 = false → s.semCount n x.outSem < s.semLimit n x.outSem →
        ∃ t, exec (.haloSend n) s = .next t ∧ (t.haloPos n 0).done = k + 1 ∧ (t.haloPos n 0).begun = false ∧
          t.semCount n x.inSem = s.semCount n x.inSem - 1 ∧ t.semCount n x.outSem = s.semCount n x.outSem + 1 ∧
          t.stripe = s.stripe ∧ t.gddr = s.gddr ∧ t.host = s.host) ∧
      (∀ m : Nat, nbr c true = (true, s.node, m) → m ≠ n.val → (s.haloPos n 0).creditR ≠ 0 →
        (∀ h ∈ (s.rink n).rx, matchesMargin h c 0 true = false) →
        ∃ t, exec (.haloSend n) s = .next t ∧ (t.haloPos n 0).creditR = (s.haloPos n 0).creditR - 1 ∧ (t.haloPos n 0).sentR = true ∧
          (t.haloPos n 0).done = k ∧ (t.rink m).inbound = (s.rink m).inbound ++
            [⟨s.node, n.val, 0, false, c.seq, c.stream, c.x0 + c.width, haloCols (s.spadReader n) x k x.width⟩] ∧
          t.stripe = s.stripe ∧ t.gddr = s.gddr ∧ t.host = s.host)) ∧
    (∀ (m : HaloMsg) (rest : List HaloMsg), (s.rink n).inbound = m :: rest →
      (m.entry = 0 → matchesMargin m c 0 m.right = true → s.marginOpen n k 0 m.right = true → (s.haloPos n 0).begun = false →
        (∀ h ∈ (s.rink n).rx, h.seq ≠ m.seq) →
        ∃ t, exec (.haloArrival n) s = .next t ∧ (t.rink n).inbound = rest ∧ (t.rink n).rx = (s.rink n).rx ++ [m] ∧
          t.stripe = s.stripe ∧ t.gddr = s.gddr ∧ t.host = s.host) ∧
      ((∀ r ∈ (s.rink n).recs, r.seq ≠ m.seq) → m.node = s.node →
        ∃ t, exec (.haloArrival n) s = .next t ∧ (t.rink n).inbound = rest ∧
          t.getF (rk n) RK_HALO_STAT_late = min (s.getF (rk n) RK_HALO_STAT_late + 1) 65535 ∧ bit (t.word (rk n + 0x14)) 5 = true ∧
          (t.rink m.src).credits = (s.rink m.src).credits ++ [(m.entry, !m.right)] ∧ Safety.MemoriesKept s t ∧ t.host = s.host)) ∧
    (∀ right : Bool, (s.rink n).credits.contains (0, right) = true →
      ∃ t, exec (.haloCreditReturn n 0 right) s = .next t ∧ (t.rink n).credits = (s.rink n).credits.erase (0, right) ∧
        (if right then (t.haloPos n 0).creditR = min 2 ((s.haloPos n 0).creditR + 1)
          else (t.haloPos n 0).creditL = min 2 ((s.haloPos n 0).creditL + 1)) ∧ Safety.MemoriesKept s t ∧ t.host = s.host) ∧
    ((s.haloPos n 0).begun = true → c.gate < s.ns → (s.haloPos n 0).doneL = false → (s.haloPos n 0).doneR = false → (s.rink n).rx = [] →
      (nbr c false).1 = true → (nbr c true).1 = true → s.semCount n x.outSem < s.semLimit n x.outSem →
      ∃ t, exec (.haloTimeout n) s = .next t ∧ (t.haloPos n 0).done = k + 1 ∧
        t.getF (rk n) RK_HALO_STAT_timeouts = min (s.getF (rk n) RK_HALO_STAT_timeouts + 2) 65535 ∧
        bit (t.word (rk n + 0x14)) 2 = true ∧ (∃ c', (t.rink n).recs[k]? = some c' ∧ c'.flagged = true) ∧
        t.semCount n x.outSem = s.semCount n x.outSem + 1 ∧ t.stripe = s.stripe ∧ t.gddr = s.gddr)

/-- A cell that has not been released goes to its rink when its queue has room: its record is the last in the queue. A switch that is
marked is taken once its rinks have finished: the plan, the binding and the domains are those of the switch, and none is marked. A
force of an available plan for which the job has the live domains marks a switch at the boundary with event bit 3. A clear puts the
counts of the page at 0 and the slack at its largest value. (10_slalom_schedule_and_verdicts.md) -/
def Obligations.SlalomReleases : Prop :=
  ∀ (j : Fin 4) (x : JobSt) (s : State), s.job j = some x → x.stopping = false →
    (∀ (st : SetSt) (m : Member) (c : CellSt) (r : Nat), s.halted = false → (∀ i ∈ s.fe.handed, i.waiting.contains j.val = false) →
      x.sets = [st] → x.switch = none → st.skip = false → st.tref = some r → st.begun = true → st.complete = false → st.spots = [] →
      st.members = [m] → m.info.lost = false → st.cells = [c] → (entOf x st 0).piste = m.piste → c.released = false → c.gone = false →
      c.lost = false → c.rerun = none → c.spot = none → s.roomFor x st (entRink x st 0) = true →
      ∃ t y u, exec (.cellRelease j) s = .next t ∧ t.job j = some y ∧ y.sets = [u] ∧ u.cells = [{ c with released := true }] ∧
        (t.rink (entRink x st 0)).recs = (s.rink (entRink x st 0)).recs ++ [s.mkRec x st m 0] ∧ Safety.MemoriesKept s t ∧
        t.host = s.host) ∧
    (∀ (w : Switch) (q : Plan), s.halted = false → x.switch = some w → x.blk.plans[w.plan]? = some q → s.switchReady j x w = true →
      let doms := if w.byFence then x.domains else (List.range 4).filter fun d => bit (s.getF (feSlm j) FE_SLM_STAT_live) d
      ∃ t y, exec (.planSwitch j) s = .next t ∧ t.job j = some y ∧ y.switch = none ∧ y.domains = doms ∧ y.bind = doms.take q.k ∧
        y.planStart = w.boundary ∧ t.getF (feSlm j) FE_SLM_STAT_plan = w.plan % 8 ∧ t.flag (feSlm j) FE_SLM_STAT_switching = false ∧
        t.host = s.host) ∧
    (∀ (a : Agent) (v : Word) (q : Plan), Safety.Admitted s a (feSlm j) 0x40 → bit v.toNat 12 = false → bits v.toNat 10 8 ≤ 2 →
      (∀ e ∈ s.jobs, e.1 = j.val) → x.blk.plans[bits v.toNat 10 8]? = some q →
      bit (s.getF (feSlm j) FE_SLM_STAT_avail) (bits v.toNat 10 8) = true →
      q.k ≤ ((List.range 4).filter fun d => bit (s.getF (feSlm j) FE_SLM_STAT_live) d).length → x.switch = none →
      ∃ t y, exec (.forcePlan a j v) s = .next t ∧ t.job j = some y ∧
        y.switch = some ⟨State.boundary x, bits v.toNat 10 8, false⟩ ∧ t.flag (feSlm j) FE_SLM_STAT_switching = true ∧
        bit (t.word (feSlm j + 0x14)) 3 = true ∧ (x.adapt = none → Safety.MemoriesKept s t)) ∧
    (∀ (a : Agent) (v : Word), Safety.Admitted s a (feSlm j) 0x40 → bit v.toNat 11 = false →
      ∃ t, exec (.slalomClear a j v) s = .next t ∧ (∀ off ∈ ([0x54, 0x58, 0x5C, 0x78, 0x7C] : List Nat), t.word (feSlm j + off) = 0) ∧
        t.word (feSlm j + 0x60) = 0x7FFFFFFF ∧ Safety.rest t = Safety.rest s)

/-- A report that comes by its gate is kept for its cell, which joins the emitter, and the slack is its smallest so far. With the link
up and room in the ring, a cell of a one-cell set gets the next record of its ring: status SKIPPED when its skipped set is due,
MISSED when its gate has passed without a report, with event bits 2 and 1 and the count of missed cells, and the status and top
class of its report when that was on time. (10_slalom_schedule_and_verdicts.md, 17_host_and_peer_links.md) -/
def Obligations.SlalomVerdicts : Prop :=
  ∀ (j : Fin 4) (x : JobSt) (s : State), s.halted = false → s.job j = some x → x.stopping = false →
    (∀ (n : Fin 16) (nn k r : Nat) (c : CellRec) (st : SetSt) (q : CellSt), x.reports.find? (fun r => r.1 == n.val) = some (nn, k, c) →
      x.sets.find? (fun u => u.num == c.set) = some st → st.cells[c.cell]? = some q → c.kind ≤ 1 → c.miss = false → q.passed = false →
      q.lost = false → st.tref = some r → s.ns ≤ q.gate →
      ∃ t y u q', exec (.cellCompletionReport j n) s = .next t ∧ t.job j = some y ∧ y.reports = x.reports.erase (nn, k, c) ∧
        y.emits.getLast? = some (st.num, primOf x st c.cell) ∧ y.sets.find? (fun u => u.num == c.set) = some u ∧
        u.cells[c.cell]? = some q' ∧ q'.rep.isSome = true ∧ Safety.MemoriesKept s t ∧ t.host = s.host ∧
        toSigned 32 (t.getF (feSlm j) FE_SLM_SLACK_slack) =
          min (toSigned 32 (s.getF (feSlm j) FE_SLM_SLACK_slack)) ((q.gate : Int) - s.ns)) ∧
    (∀ (st : SetSt) (m : Member) (c : CellSt) (r : Nat),
      let ring := (x.blk.pistes.getD (entOf x st 0).piste { stream := 0, ring := 0, shift := 0, sx := 1, sy := 1 }).ring
      let place := s.vringPlace ring (if (s.vring ring).opened then (s.vring ring).recs.length else 0)
      x.sets = [st] → x.switch = none → st.tref = some r → st.complete = false → st.cells = [c] → (entOf x st 0).replica = false →
      memberOf st (entOf x st 0).piste = some m → c.done = false → c.rerun = none → c.spot = none → c.held = none →
      s.link.up = true → s.vringRoom ring = true →
      ((s.vring ring).opened = true → (s.vring ring).recs.length < blockRecs (s.vring ring)) →
      (st.skip = true → r ≤ s.ns → ∃ t y, exec (.setSkipped j) s = .next t ∧ memRead t.host place 4 = leBytes 4 m.info.seq ∧
        memByte t.host (place + 6) = 4 ∧ bit (t.word (feSlm j + 0x14)) 1 = true ∧ t.job j = some y ∧ (∀ u ∈ y.sets, u.complete = true) ∧
        Safety.MemoriesKept s t) ∧
      (st.skip = false → c.passed = false → c.lost = false → c.rep = none → c.gate < s.ns → st.missed = [] →
        ∃ t, exec (.cellGate j) s = .next t ∧ memRead t.host place 4 = leBytes 4 m.info.seq ∧ memByte t.host (place + 6) = 2 ∧
          t.getF (feSlm j) FE_SLM_MISS_missed = min (s.getF (feSlm j) FE_SLM_MISS_missed + 1) 65535 ∧
          bit (t.word (feSlm j + 0x14)) 2 = true ∧ bit (t.word (feSlm j + 0x14)) 1 = true ∧ Safety.MemoriesKept s t) ∧
      (∀ rep : Report, c.rep = some rep → rep.rcd.kind = 0 → rep.rcd.miss = false → x.emits = [(st.num, 0)] → x.blk.markers = [] →
        x.blk.crops = [] → x.adapt = none →
        ∃ t y, exec (.verdictEmit j) s = .next t ∧ memRead t.host place 4 = leBytes 4 m.info.seq ∧
          (memByte t.host (place + 6)).toNat = b01 rep.rcd.flagged ∧
          (memByte t.host (place + 15)).toNat = (derive' rep.summary).top % 256 ∧ t.job j = some y ∧ y.emits = [] ∧
          Safety.MemoriesKept s t))

/-- With fewer than six transfers outstanding, a Chairlift starts its first due transfer and takes a free slot for it. When its oldest
unicast transfer is done the slot holds its tile. A receiver of a run that is within the skid takes its tile: it moves to the next,
and the run ends when all have the last. A receiver that is held to lag leaves the run, counted with event bit 0.
(11_data_movement.md) -/
def Obligations.TileTransfers : Prop :=
  ∀ s : State, s.halted = false →
    (∀ (i : Fin 144) (d : State.Due) (ds : List State.Due) (p : OpSt), (s.lift i).length < 6 → s.dues i = d :: ds → s.walking d.core = some p →
      ∃ t tr, exec (.chairliftFetchStart i) s = .next t ∧ t.lift i = s.lift i ++ [tr] ∧ tr.core = d.core ∧ tr.level = d.level ∧
        tr.weight = d.weight ∧ tr.tile = d.tile ∧ tr.bytes = p.slotBytes d.v.phase d.level d.weight ∧ tr.dead = false ∧
        t.slotSem d.core d.level d.weight false = s.slotSem d.core d.level d.weight false - 1 ∧ Safety.MemoriesKept s t) ∧
    (∀ (i : Fin 144) (tr : Transfer) (rest : List Transfer) (p : OpSt) (v : Visit), s.lift i = tr :: rest → tr.via = none → tr.dead = false →
      s.walking tr.core = some p → (p.tiles tr.level tr.weight).find? (fun e => e.1 == tr.tile) = some (tr.tile, v) →
      ∃ t q, exec (.chairliftTransferDone i false) s = .next t ∧ t.lift i = rest ∧ (t.core tr.core).cur = some q ∧ q.desc = p.desc ∧
        (q.slots tr.level tr.weight).held = (p.slots tr.level tr.weight).held.map (fun h => if h.1 = tr.tile then (h.1, h.2.1, true) else h) ∧
        t.stripe = s.stripe ∧ t.gddr = s.gddr ∧ t.host = s.host) ∧
    (∀ (g : Fin 16) (recv : Fin 144) (r : GondolaRun) (p : OpSt) (tr : Transfer),
      let i := (recv.val - 16) / 8
      let att := r.attached.map fun a => if a.1 = recv.val then (a.1, a.2 + 1) else a
      16 ≤ recv.val → (s.gond g).run = some r → s.walking (recv.val - 16) = some p →
      (s.lift i).find? (fun t => t.core == recv.val - 16 && t.via == some g.val && !t.dead) = some tr →
      s.skidOk r recv (State.runBeats p) = true →
      ∃ t, exec (.gondolaTileCredit g recv) s = .next t ∧ t.lift i = (s.lift i).erase tr ∧ t.gddr = s.gddr ∧ t.stripe = s.stripe ∧
        t.host = s.host ∧
        ((att.all fun a => decide (r.tiles.length ≤ a.2)) = false → (t.gond g).run = some { r with attached := att }) ∧
        ((att.all fun a => decide (r.tiles.length ≤ a.2)) = true → (t.gond g).run = none ∧ (t.gond g).runs = (s.gond g).runs + 1)) ∧
    (∀ (g : Fin 16) (recv : Fin 144) (r : GondolaRun) (me b : Nat × Nat), 16 ≤ recv.val → (s.gond g).run = some r →
      r.attached.find? (fun a => a.1 == recv.val) = some me → me.2 < r.tiles.length → b ∈ r.attached → b.1 ≠ recv.val → me.2 < b.2 →
      ∃ t, exec (.gondolaDetach g recv) s = .next t ∧ t.getF gdPage GD_STAT_detaches = min (s.getF gdPage GD_STAT_detaches + 1) 65535 ∧
        bit (t.word (gdPage + 0x14)) 0 = true ∧ (∀ r', (t.gond g).run = some r' → ∀ a ∈ r'.attached, a.1 ≠ recv.val) ∧
        Safety.MemoriesKept s t)

/-- A go on an idle channel whose head slot is READY makes it busy at that slot; an abort before the slot has started makes it BAD with
cause 7 and stops the channel. A slot that meets its trigger and its checks starts. A slot that is done has moved its bytes from
GDDR6 to host memory, nothing else of host memory, and is DONE with its count. An outside error that its spaces can meet makes it
BAD with the cause and the whole blocks before it. (11_data_movement.md) -/
def Obligations.DmaChannels : Prop :=
  ∀ (c : Fin 16) (s : State),
    (∀ (a : Agent) (v : Word), Safety.Admitted s a (dmCh c) 0x40 →
      (s.flag (dmCh c) DM_CH_STAT_busy = false → s.enabled (dmCh c) = true →
        s.getF (dmCh c) DM_SLOTn_CTRL_state (bits v.toNat 2 0) = 1 →
        ∃ t, exec (.dmaGo a c v) s = .next t ∧ t.flag (dmCh c) DM_CH_STAT_busy = true ∧
          t.getF (dmCh c) DM_CH_STAT_slot = bits v.toNat 2 0 ∧ bit (t.getF dmCommonPage DM_BUSY_busy) c = true ∧
          t.dmaRun c = ⟨bits v.toNat 2 0, false, 0⟩ ∧ Safety.MemoriesKept s t ∧ t.host = s.host) ∧
      (s.flag (dmCh c) DM_CH_STAT_busy = true → (s.dmaRun c).slot < 8 → (s.dmaRun c).started = false →
        ∃ t, exec (.dmaAbort a c v) s = .next t ∧ t.flag (dmCh c) DM_CH_STAT_busy = false ∧ (t.dmaRun c).slot = 8 ∧
          t.getF (dmCh c) DM_SLOTn_CTRL_state (s.dmaRun c).slot = 3 ∧ t.getF (dmCh c) DM_SLOTn_CTRL_cause (s.dmaRun c).slot = 7 ∧
          bit (t.getF dmCommonPage DM_BUSY_busy) c = false ∧ bit (t.word (dmCh c + 0x14)) 9 = true ∧ Safety.MemoriesKept s t ∧
          t.host = s.host)) ∧
    (s.halted = false → (s.dmaRun c).slot < 8 →
      let n := (s.dmaRun c).slot
      let cnt := s.getF (dmCh c) DM_SLOTn_CNT_count n
      ((s.dmaRun c).started = false → s.trigMet c n = true → s.slotFault c n = 0 → s.slotReadable c n = true →
        s.getF (dmCh c) DM_SLOTn_CTRL_dst_space n ≠ 3 → ∃ t, exec (.dmaSlotStart c) s = .next t ∧ t.dmaRun c = ⟨n, true, 0⟩ ∧
          t.flag (dmCh c) DM_CH_STAT_waiting = false ∧ Safety.MemoriesKept s t ∧ t.host = s.host) ∧
      ((s.dmaRun c).started = true → s.peerWrites c = false → s.getF (dmCh c) DM_SLOTn_CTRL_src_space n = 1 →
        s.getF (dmCh c) DM_SLOTn_CTRL_dst_space n = 0 → s.sealed = [] →
        ∃ t, exec (.dmaSlotDone c) s = .next t ∧ memRead t.host (s.slotDst c n) cnt = memRead s.gddr (s.slotSrc c n) cnt ∧
          (∀ x, x < s.slotDst c n ∨ s.slotDst c n + cnt ≤ x → memByte t.host x = memByte s.host x) ∧ Safety.MemoriesKept s t ∧
          t.getF (dmCh c) DM_SLOTn_CTRL_state n = 2 ∧ t.getF (dmCh c) DM_SLOTn_DONE_bytes n = cnt ∧
          (s.flag (dmCh c) DM_SLOTn_CTRL_irq_en n = true → bit (t.word (dmCh c + 0x14)) n = true)) ∧
      (∀ (e : DmaError) (bytes : Nat), (s.dmaRun c).started = true → (s.dmaErr c n e).2 = true → bytes < cnt →
        s.getF (dmCh c) DM_SLOTn_CTRL_dst_space n ≠ 3 → ∃ t, exec (.dmaSlotBad c e bytes) s = .next t ∧
          t.getF (dmCh c) DM_SLOTn_CTRL_state n = 3 ∧ t.getF (dmCh c) DM_SLOTn_CTRL_cause n = (s.dmaErr c n e).1 ∧
          t.getF (dmCh c) DM_SLOTn_DONE_bytes n = bytes / 64 * 64 ∧ bit (t.word (dmCh c + 0x14)) 8 = true ∧ t.stripe = s.stripe ∧
          t.spad = s.spad))

/-- A free window that meets the conditions of R348 opens with its count at 0 and its owner; an open one that is closed waits, and is
closed with event bit 1 once no write of it is on its way. A write that an open window takes joins the queue; the first 64 bytes of
the oldest of a window land at its place, nothing else of that memory, and are counted; a count that meets the target raises event
bit 0 and shows in WN_PEND. (11_data_movement.md) -/
def Obligations.Windows : Prop :=
  ∀ (w : Fin 256) (s : State),
    let p := winPage w
    let e := winEnt w
    (∀ (a : Agent) (v : Word), Safety.Admitted s a p (0x800 + 0x20 * e) → s.winBarred a w = false →
      bits v.toNat 27 18 = bits (s.word (p + (0x800 + 0x20 * e))) 27 18 →
      (s.enabled p = true → s.getF p WN_CTRL_state e = 0 → s.openReason w = 0 → ∃ t, exec (.windowOpen a w v) s = .next t ∧
        t.getF p WN_CTRL_state e = 1 ∧ t.flag p WN_CTRL_open e = true ∧ t.flag p WN_CTRL_owner e = (a == .puppeteer) ∧
        t.getF p WN_ARR_count e = 0 ∧ Safety.rest t = Safety.rest s) ∧
      (s.getF p WN_CTRL_state e = 1 → ∃ t, exec (.windowClose a w v) s = .next t ∧ t.getF p WN_CTRL_state e = 2 ∧
        t.flag p WN_CTRL_open e = false ∧ Safety.rest t = Safety.rest s)) ∧
    (s.halted = false → s.getF p WN_CTRL_state e = 2 → (∀ x ∈ s.move.winq, x.win ≠ w.val) →
      ∃ t, exec (.windowCloseDone w) s = .next t ∧ t.getF p WN_CTRL_state e = 3 ∧ bit (t.word (wnPage + 0x14)) 1 = true ∧
        bit (t.getF wnPage WN_PENDk_pend (w / 32)) (w % 32) = true ∧ Safety.rest t = Safety.rest s) ∧
    (∀ (node : Fin 4) (dma : Bool) (addr : BitVec 64) (data : List Byte), s.halted = false → bits addr.toNat 61 54 = w.val →
      State.winSized data.length = true → (dma = true ∨ node.val = s.node) → s.getF p WN_CTRL_state e = 1 →
      s.flag p WN_CTRL_kind e = (node.val != s.node) → (node.val = s.node ∨ bit (s.getF p WN_CTRL_nodes e) node = true) →
      bits addr.toNat 53 0 + data.length ≤ 64 * s.getF p WN_SIZE_size e → s.move.winq.length < 16 →
      ∃ t, exec (.windowWrite node dma addr data) s = .next t ∧ t.move.winq = s.move.winq ++ [⟨w, bits addr.toNat 53 0, data⟩] ∧
        Safety.MemoriesKept s t ∧ t.host = s.host ∧ Safety.WordsKept (fun _ => False) s t) ∧
    (∀ x : WinWrite, s.halted = false → s.sealed = [] → s.move.winq.find? (fun x => x.win == w.val) = some x →
      let n := (s.getF p WN_ARR_count e + 1) % 2 ^ 32
      let landed := fun (old new : List Host.Cell) (at' : Nat) => memRead new at' (x.data.take 64).length = x.data.take 64 ∧
        ∀ y, y < at' ∨ at' + (x.data.take 64).length ≤ y → memByte new y = memByte old y
      ∃ t, exec (.windowArrival w) s = .next t ∧ t.getF p WN_ARR_count e = n ∧ t.host = s.host ∧ t.stripe = s.stripe ∧
        (s.flag p WN_CTRL_target e = true → landed s.gddr t.gddr (s.getF p WN_BASE_base e * 64 + x.off) ∧ t.spad = s.spad) ∧
        (s.flag p WN_CTRL_target e = false → landed s.spad t.spad (s.getF p WN_CTRL_rink e * 2 ^ 23 +
          (bits (s.getF p WN_BASE_base e) 22 6 * 64 + x.off) % 2 ^ 23) ∧ t.gddr = s.gddr) ∧
        (x.data.drop 64 = [] → t.move.winq = s.move.winq.erase x) ∧
        (n = s.getF p WN_TARGET_target e → bit (t.word (wnPage + 0x14)) 0 = true ∧
          bit (t.getF wnPage WN_PENDk_pend (w / 32)) (w % 32) = true)) ∧
    (∀ (a : Agent) (v : Word), Safety.Admitted s a p (0x810 + 0x20 * e) → s.winBarred a w = false →
      ∃ t, exec (.windowTargetWrite a w v) s = .next t ∧ t.getF p WN_TARGET_target e = v.toNat ∧ Safety.rest t = Safety.rest s ∧
        (s.getF p WN_ARR_count e = v.toNat → bit (t.word (wnPage + 0x14)) 0 = true ∧
          bit (t.getF wnPage WN_PENDk_pend (w / 32)) (w % 32) = true))

/-- A label accepted from a ring whose capture one adapting job holds joins its sample queue. ADAPT_SWAP requests a swap; ADAPT_PAUSE
pauses a running job at once, or after the step in progress; ADAPT_RESUME lets it run again; ADAPT_ROLLBACK copies init over the
weights and bank 0 takes over at the next boundary. A step takes its batch from the queue, whose overwritten samples are dropped and
counted, and when done has updated the rows and counts toward the next swap. A swap quantises every layer into a free bank, which
waits for the boundary. Which jobs a command acts on and the label layout are the choice of this model (log 43).
(12_online_adaptation.md) -/
def Obligations.Adaptation : Prop :=
  ∀ s : State, s.halted = false →
    (∀ (r : Fin 8) (u : State) (f : List Byte) (j : Fin 4) (a : AdaptSt), s.adaptOf j = some a →
      (let e := (frameBody f).drop ((frameBody f).length - 16)
        ∀ (l : AdaptLayer) (n : Nat), Safety.accepted s r 0x40 = some (u, f) → u.adaptJobs r = [j.val] → le (frameBody f) 0 1 = 1 →
          16 ≤ (frameBody f).length → a.desc.layers.getLast? = some l → le e 5 1 < l.nOut → le e 6 1 ≠ 0 → le e 7 1 = 0 → le e 10 6 = 0 →
          s.findCapture a (le e 0 4) (le e 4 1) (le e 8 2) = some n → a.samples.any (fun x => x.cap == n) = false →
          a.samples.length < 4096 → ∃ t, exec (.adaptLabel r) s = .next t ∧
            t.adaptOf j = some { a with samples := a.samples ++ [⟨n, le e 5 1, le e 6 1⟩] } ∧
            t.getF (feSlm j) FE_SLM_ADCNT_queued = a.samples.length + 1 ∧ Safety.MemoriesKept s t) ∧
      (Safety.accepted s r 0x41 = some (u, f) → j.val ∈ u.adaptJobs r → s.adaptState j ≠ 0 → ∃ t, exec (.adaptSwap r) s = .next t ∧
        t.adaptOf j = some { a with wantSwap := true } ∧ t.adaptState j = s.adaptState j ∧ Safety.MemoriesKept s t) ∧
      (Safety.accepted s r 0x42 = some (u, f) → j.val ∈ u.adaptJobs r → s.adaptState j = 1 → ∃ t, exec (.adaptPause r) s = .next t ∧
        (a.run = none → t.adaptOf j = some a ∧ t.adaptState j = 2) ∧
        (a.run.isSome = true → t.adaptOf j = some { a with pausing := true } ∧ t.adaptState j = 1) ∧ Safety.MemoriesKept s t) ∧
      (Safety.accepted s r 0x43 = some (u, f) → j.val ∈ u.adaptJobs r → s.adaptState j = 2 → ∃ t, exec (.adaptResume r) s = .next t ∧
        t.adaptOf j = some a ∧ t.adaptState j = 1 ∧ Safety.MemoriesKept s t) ∧
      (Safety.accepted s r 0x44 = some (u, f) → u.adaptJobs r = [j.val] → s.adaptState j ≠ 0 → s.initReadable a = true → a.run = none →
        ∃ t, exec (.adaptRollback r) s = .next t ∧ t.gddr = (s.adaptInit a.desc 0xE0).gddr ∧ t.stripe = s.stripe ∧ t.spad = s.spad ∧
          t.adaptOf j = some { a with pausing := false, next := some 0, rollback := true, sinceSwap := 0 } ∧
          t.getF (feSlm j) FE_SLM_ADSTEP_t = 0 ∧ t.getF (feSlm j) FE_SLM_ADAPT_pend = 0 ∧
          t.adaptState j = if a.pausing || s.adaptState j == 4 then 2 else s.adaptState j)) ∧
    (∀ (j : Fin 4) (a : AdaptSt), s.adaptOf j = some a →
      (let good := (a.samples.take a.desc.batch).filter fun x => (s.sampleIn a.desc x).isSome;
        s.adaptState j = 1 → a.run = none → a.desc.batch ≤ a.samples.length →
        (∀ t0, a.lastStart = some t0 → a.desc.batch * (1000000000 * 2 ^ 32) ≤ (s.time.elapsed - t0) * a.desc.rateMax) →
        ∃ t, exec (.adaptStep j) s = .next t ∧ Safety.MemoriesKept s t ∧
          t.adaptOf j =
            some { a with samples := a.samples.drop a.desc.batch, run := some ⟨good, 0⟩, lastStart := some s.time.elapsed } ∧
          t.getF (feSlm j) FE_SLM_ADSTEP_t = (s.getF (feSlm j) FE_SLM_ADSTEP_t + 1) % 2 ^ 32 ∧
          t.getF (feSlm j) FE_SLM_ADERR_dropped = min (s.getF (feSlm j) FE_SLM_ADERR_dropped + (a.desc.batch - good.length)) 65535) ∧
      (∀ x : AdaptRun, a.run = some x →
        let due := decide (a.desc.swapSteps ≤ a.sinceSwap + 1)
        ∃ t, exec (.adaptStepDone j) s = .next t ∧ t.stripe = s.stripe ∧ t.spad = s.spad ∧
          t.gddr = (s.stepRows a.desc (s.getF (feSlm j) FE_SLM_ADSTEP_t) x.batch (adaptRows a.desc)).gddr ∧
          t.adaptOf j = some { a with
            run := none, pausing := false, wantSwap := a.wantSwap || due, sinceSwap := if due then 0 else a.sinceSwap + 1 } ∧
          t.adaptState j = if a.pausing then 2 else s.adaptState j) ∧
      (∀ (x : JobSt) (b : Nat), s.job j = some x → [1, 2].find? (fun b => s.bankFree j b x) = some b → a.wantSwap = true →
        a.run = none → (s.adaptState j = 1 ∨ s.adaptState j = 2) →
        ∃ t, exec (.weightSwap j) s = .next t ∧ t.stripe = s.stripe ∧ t.spad = s.spad ∧
          t.gddr = (a.desc.layers.zipIdx.foldl (fun (v : State) l => (v.quantise a.desc l.2 l.1 b).1) s).gddr ∧
          (a.rollback = true → t.adaptOf j = some { a with wantSwap := false }) ∧
          (a.rollback = false → t.adaptOf j = some { a with wantSwap := false, next := some b } ∧
            t.getF (feSlm j) FE_SLM_ADAPT_pend = b)))

/-- Training of all channels in stage FIRMWARE shows them trained at a rate from 10,000 to 18,000 Mb/s; a channel that fails halts the
device. Initialisation zeroes memory. A request reads or writes its bytes; a corrected word is counted with its block and event bit
0, an uncorrectable one with event bit 1 and no data; link errors are retried and counted, and beyond the limit the channel
retrains. Retraining goes back to the state that the power state gives, or halts the device. Patrol reads count the same errors. A
host access through BAR2 reads or writes the local space, 0xFF beyond its end and before READY. (13_gddr6_memory.md,
17_host_and_peer_links.md, 22_bring_up.md) -/
def Obligations.MemoryAndBar2 : Prop :=
  ∀ s : State, s.halted = false →
    (∀ ok : BitVec 8, s.stage = 3 → s.getF mxCommonPage MX_STAT_trained = 0 → ∃ t, exec (.gddr6Training ok) s = .next t ∧
      t.getF mxCommonPage MX_STAT_trained = ok.toNat ∧ 10000 ≤ t.getF mxCommonPage MX_STAT_rate_mbps ∧
      t.getF mxCommonPage MX_STAT_rate_mbps ≤ 18000 ∧ t.flag mxCommonPage MX_CFG_ecc_en = !s.sec.eccOff ∧ Safety.MemoriesKept s t ∧
      (ok = 255 → t.stage = 3) ∧ (ok ≠ 255 → t.stage = 5 ∧ (s.getF dvPage DV_HALT_code = 0 → t.getF dvPage DV_HALT_code = 0x0509))) ∧
    (s.getF mxCommonPage MX_STAT_trained = 255 → s.eccOn = true → s.flag mxCommonPage MX_STAT_init_done = false →
      ∃ t, exec .gddr6InitDone s = .next t ∧ t.gddr = [] ∧ t.stripe = s.stripe ∧ t.spad = s.spad ∧
        t.flag mxCommonPage MX_STAT_init_done = true ∧ bit (t.word (mxCommonPage + 0x14)) 0 = true) ∧
    (∀ (agent addr len errBits : Nat) (data : List Byte),
      let c := gddrChannel (addr / 64)
      s.getF (mxCh c) MX_CH_STAT_state ≠ 3 → (s.eccOn = true → s.flag mxCommonPage MX_STAT_init_done = true) →
      (s.requestShaped addr len = true → (errBits = 0 ∨ (errBits = 1 ∧ s.eccOn = true)) →
        ∃ t, exec (.gddr6Request agent false addr data len errBits 0) s = .next t ∧ t.rbytes = s.gddrRd addr len ∧
          Safety.MemoriesKept s t ∧ (errBits = 0 → t.host = s.host) ∧
          (errBits = 1 → t.getF (mxCh c) MX_CH_ECC_ce = min (s.getF (mxCh c) MX_CH_ECC_ce + 1) 65535 ∧
            t.getF (mxCh c) MX_CH_ECC_ADDR_block = addr / 64 ∧ bit (t.word (mxCh c + 0x14)) 0 = true)) ∧
      (s.requestShaped addr len = true → 2 ≤ errBits → s.eccOn = true → 180 ≤ agent →
        ∃ t, exec (.gddr6Request agent false addr data len errBits 0) s = .next t ∧ t.rbytes = [] ∧ Safety.MemoriesKept s t ∧
          t.getF (mxCh c) MX_CH_ECC_ue = min (s.getF (mxCh c) MX_CH_ECC_ue + 1) 65535 ∧
          t.getF (mxCh c) MX_CH_ECC_ADDR_block = addr / 64 ∧ bit (t.word (mxCh c + 0x14)) 1 = true) ∧
      (∀ edc : Nat, s.requestShaped addr data.length = true →
        (edc ≤ s.getF (mxCh c) MX_CH_CTRL_edc_retries →
          ∃ t, exec (.gddr6Request agent true addr data len errBits edc) s = .next t ∧ t.gddr = (s.gddrWr addr data).gddr ∧
            t.stripe = s.stripe ∧ t.spad = s.spad ∧
            (0 < edc → t.getF (mxCh c) MX_CH_EDC_retries = min (s.getF (mxCh c) MX_CH_EDC_retries + 1) 65535 ∧
              bit (t.word (mxCh c + 0x14)) 2 = true)) ∧
        (s.getF (mxCh c) MX_CH_CTRL_edc_retries < edc → 180 ≤ agent →
          ∃ t, exec (.gddr6Request agent true addr data len errBits edc) s = .next t ∧ t.rbytes = [] ∧ Safety.MemoriesKept s t ∧
            t.getF (mxCh c) MX_CH_EDC_fails = min (s.getF (mxCh c) MX_CH_EDC_fails + 1) 65535 ∧
            t.getF (mxCh c) MX_CH_STAT_state = 3 ∧ bit (t.word (mxCh c + 0x14)) 3 = true))) ∧
    (∀ c : Fin 8,
      (∀ (a : Agent) (v : Word), Safety.Admitted s a (mxCh c) 0x40 → s.enabled (mxCh c) = true →
        ∃ t, exec (.gddr6Retrain a c v) s = .next t ∧ t.getF (mxCh c) MX_CH_STAT_state = 3 ∧ Safety.rest t = Safety.rest s) ∧
      (s.getF (mxCh c) MX_CH_STAT_state = 3 →
        (∃ t, exec (.gddr6RetrainDone c true) s = .next t ∧ t.getF (mxCh c) MX_CH_STAT_state = s.channelState ∧
          bit (t.word (mxCh c + 0x14)) 4 = true ∧ Safety.MemoriesKept s t) ∧
        (s.stage = 3 ∨ s.stage = 4 → ∃ t, exec (.gddr6RetrainDone c false) s = .next t ∧ t.stage = 5 ∧ Safety.MemoriesKept s t)) ∧
      (∀ (block : Word) (errBits : Nat), s.getF mxCommonPage MX_SCRUB_period_ms ≠ 0 → s.eccOn = true →
        s.flag mxCommonPage MX_STAT_init_done = true → block.toNat * 64 < s.gddrEnd → gddrChannel block.toNat = c →
        s.getF (mxCh c) MX_CH_STAT_state = 0 → ∃ t, exec (.gddr6PatrolRead c block errBits) s = .next t ∧
          t.getF (mxCh c) MX_CH_ECC_ce = (if errBits = 1 then min (s.getF (mxCh c) MX_CH_ECC_ce + 1) 65535 else s.getF (mxCh c) MX_CH_ECC_ce) ∧
          t.getF (mxCh c) MX_CH_ECC_ue = (if 2 ≤ errBits then min (s.getF (mxCh c) MX_CH_ECC_ue + 1) 65535 else s.getF (mxCh c) MX_CH_ECC_ue) ∧
          Safety.MemoriesKept s t) ∧
      (∀ tempC : Int, stateRuns s.clockState (5 + c.val) = true → -32768 ≤ tempC → tempC < 32768 →
        ∃ t, exec (.gddr6TemperatureRead c tempC) s = .next t ∧ toSigned 16 (t.getF (mxCh c) MX_CH_STAT_temp_c) = tempC ∧
          t.getF (mxCh c) MX_CH_STAT_state = s.getF (mxCh c) MX_CH_STAT_state ∧ Safety.rest t = Safety.rest s)) ∧
    (∀ (off len : Nat) (data : List Byte), s.hostWaits = false → s.psState ≠ 3 → off + len ≤ 2 ^ s.link.bar2Log2 →
      off + data.length ≤ 2 ^ s.link.bar2Log2 →
      (s.readyReached = true → (s.eccOn = true → s.flag mxCommonPage MX_STAT_init_done = true) →
        (s.bar2Addr off + len ≤ s.gddrEnd → ∃ t, exec (.bar2Access false off data len false) s = .next t ∧
          t.rbytes = s.gddrRdPath true (s.bar2Addr off) len ∧ Safety.MemoriesKept s t) ∧
        (s.bar2Addr off + data.length ≤ s.gddrEnd → ∃ t, exec (.bar2Access true off data len false) s = .next t ∧
          t.gddr = (s.gddrWrPath true (s.bar2Addr off) data).gddr ∧ t.stripe = s.stripe ∧ t.spad = s.spad) ∧
        (s.gddrEnd ≤ s.bar2Addr off → (∃ t, exec (.bar2Access false off data len false) s = .next t ∧
            t.rbytes = List.replicate len 0xFF ∧ Safety.MemoriesKept s t) ∧
          ∃ t, exec (.bar2Access true off data len false) s = .next t ∧ Safety.MemoriesKept s t)) ∧
      (s.readyReached = false → ∃ t, exec (.bar2Access false off data len false) s = .next t ∧
        t.rbytes = List.replicate len 0xFF ∧ Safety.MemoriesKept s t ∧ t.host = s.host))

/-- A single-bit error of a core or scratchpad SRAM is counted with its event; an uncorrectable one, a parity error of a segment, a
watchdog, or a commanded fence fences the live domain: FENCED with code and time, counted, and its event raised; in the Puppeteer it
halts the device. A fenced domain goes to RESETTING while its resets in the last hour are below reset_max, and else is DISABLED. A
reset that is done leaves the domain LIVE, its pages at their reset values, its cores and rinks at rest and its scratchpads zero;
one that fails leaves it FENCED with the code. Stated of domains that no job holds. (14_resilience.md) -/
def Obligations.ErrorsFencesAndHotReset : Prop :=
  ∀ s : State, s.halted = false →
    (∀ (k : Fin 128) (m : Fin 4), s.sramLive (.core k m) = true →
      let f := ([CR_ECC_wbuf_ce, CR_ECC_abuf_ce, CR_ECC_acc_ce, CR_ECC_rowbuf_ce] : List Fld).getD m.val CR_ECC_wbuf_ce
      (∃ t, exec (.sramPatrolRead (.core k m) 0) s = .next t ∧ Safety.rest t = Safety.rest s ∧ Safety.WordsKept (fun _ => False) s t) ∧
      ∃ t, exec (.sramPatrolRead (.core k m) 1) s = .next t ∧ t.getF (cr k) f = min (s.getF (cr k) f + 1) 255 ∧
        bit (t.word (cr k + 0x14)) 8 = true ∧ Safety.MemoriesKept s t) ∧
    (∀ n : Fin 16, s.sramLive (.spad n) = true → ∃ t, exec (.sramPatrolRead (.spad n) 1) s = .next t ∧
      t.getF (rk n) RK_SPAD_ECC_ce = min (s.getF (rk n) RK_SPAD_ECC_ce + 1) 65535 ∧ bit (t.word (rk n + 0x14)) 6 = true ∧
      Safety.MemoriesKept s t) ∧
    (s.stage = 3 ∨ s.stage = 4 → ∃ t, exec (.sramUncorrectable .puppeteer) s = .next t ∧ t.stage = 5 ∧
      (s.getF dvPage DV_HALT_code = 0 → t.getF dvPage DV_HALT_code = 0x0504) ∧ Safety.MemoriesKept s t) ∧
    (∀ corrected : Bool, ∃ t, exec (.sharedHeaderError corrected) s = .next t ∧ Safety.rest t = Safety.rest s ∧
      t.getF pwPage PW_SHARED_corrected =
        (if corrected then min (s.getF pwPage PW_SHARED_corrected + 1) 65535 else s.getF pwPage PW_SHARED_corrected) ∧
      t.getF pwPage PW_SHARED_dropped =
        (if corrected then s.getF pwPage PW_SHARED_dropped else min (s.getF pwPage PW_SHARED_dropped + 1) 65535)) ∧
    (∀ d : Fin 4,
      let fenced := fun (t : State) (code : Nat) => t.domState d = 1 ∧ t.getF pwPage PW_DOM_STATd_last_code d = code ∧
        t.getF pwPage PW_DOM_CNTd_fences d = min (s.getF pwPage PW_DOM_CNTd_fences d + 1) 65535 ∧
        t.get64 pwPage PW_DOM_TLOd_t_lo PW_DOM_THId_t_hi d = s.ns % 2 ^ 64 ∧ bit (t.word (pwPage + 0x14)) (16 + d) = true ∧
        t.gddr = s.gddr ∧ t.stripe = s.stripe ∧ ∀ n : Fin 16, n.val / 4 = d → t.rink n = .idle
      ((∀ (j : Nat) (x : JobSt), s.job j = some x → d.val ∉ x.domains) → s.domState d = 0 →
        (s.psState ≠ 6 →
          (∀ (k : Fin 128) (m : Fin 4) (n : Nat), k.val / 32 = d → s.sramLive (.core k m) = true → 2 ≤ n →
            (∃ t, exec (.sramUncorrectable (.core k m)) s = .next t ∧ fenced t 0x0502) ∧
            ∃ t, exec (.sramPatrolRead (.core k m) n) s = .next t ∧ fenced t 0x0502) ∧
          (∀ page : Nat, ∃ t, exec (.ctrlParity d page true) s = .next t ∧ fenced t 0x0704) ∧
          ∃ t, exec (.domainWatchdog d) s = .next t ∧ fenced t 0x0705) ∧
        ∀ (a : Agent) (v : Word), Safety.Admitted s a pwPage (0x200 + 0x20 * d.val) →
          ∃ t, exec (.fenceCmd a d v) s = .next t ∧ fenced t 0) ∧
      (s.domState d = 1 →
        let top := fun v : Word => if bits v.toNat 23 16 = 0 then s.getF pwPage PW_DOM_CTRLd_reset_max d else bits v.toNat 23 16;
        (∀ (a : Agent) (v : Word), Safety.Admitted s a pwPage (0x200 + 0x20 * d.val) → ∃ t, exec (.hotResetCmd a d v) s = .next t ∧
          Safety.MemoriesKept s t ∧
          ((s.recentResets d).length < top v → t.domState d = 2) ∧
          (top v ≤ (s.recentResets d).length → t.domState d = 3 ∧ bit (t.word (pwPage + 0x14)) (24 + d) = true)) ∧
        (s.flag pwPage PW_DOM_CTRLd_auto_reset d = true → ∃ t, exec (.autoReset d) s = .next t ∧ Safety.MemoriesKept s t ∧
          ((s.recentResets d).length < s.getF pwPage PW_DOM_CTRLd_reset_max d → t.domState d = 2) ∧
          (s.getF pwPage PW_DOM_CTRLd_reset_max d ≤ (s.recentResets d).length → t.domState d = 3 ∧
            bit (t.word (pwPage + 0x14)) (24 + d) = true))) ∧
      (s.domState d = 2 →
        (∃ t, exec (.hotResetDone d) s = .next t ∧ t.domState d = 0 ∧ bit (t.word (pwPage + 0x14)) (20 + d) = true ∧
          t.getF ckPage CK_LOCK_locked = s.getF ckPage CK_LOCK_locked ||| domainPlls d ∧ t.gddr = s.gddr ∧ t.stripe = s.stripe ∧
          (∀ n : Fin 16, n.val / 4 = d → t.rink n = .idle ∧ (∀ c < 8, t.core (8 * n + c) = .idle) ∧
            (∀ k, rk n ≤ k → k < rk n + 0x100000 → t.word k = (regReset k).toNat) ∧
            ∀ x < 2 ^ 23, memByte t.spad (n * 2 ^ 23 + x) = 0)) ∧
        ∀ code : BitVec 16, ∃ t, exec (.hotResetFail d code) s = .next t ∧ t.domState d = 1 ∧
          t.getF pwPage PW_DOM_STATd_last_code d = code.toNat ∧ Safety.rest t = Safety.rest s) ∧
      (let stop := (s.domainAt d).winStart + s.getF pwPage PW_DOM_THRd_window_ms d * 1000000 * 2 ^ 32;
        stop ≤ s.time.elapsed → ∃ t, exec (.eventWindowEnd d) s = .next t ∧ t.getF pwPage PW_DOM_CNTd_events d = 0 ∧
          (t.domainAt d).winStart = stop ∧ Safety.MemoriesKept s t))

/-- Before the store is mounted a store command is answered with result 2. STORE_STATUS answers with the registers and the free space;
MODEL_STORE encrypts the image in the transfer area under the key of its slot and the write counter and holds it in its index;
MODEL_ERASE empties an index; ARCHIVE_READ and LOG_READ place records and entries in the transfer area; an authorised FW_WRITE
replaces the copy not in use. Stated where no LOG page is due. The layouts of the replies, the form of a stored image and the copy
that FW_WRITE takes are the choice of this model (log 45, 46, 48). (16_nand_store.md) -/
def Obligations.StoreCommands : Prop :=
  ∀ (r : Fin 8) (s u : State) (f : List Byte), s.halted = false →
    let b := frameBody f
    (s.mounted = false → Safety.oneFrame s r → Safety.accepted s r 0x50 = some (u, f) →
      ∃ t, exec (.storeStatus r) s = .next t ∧ Safety.Answered s t r f 0 [2] ∧ Safety.MemoriesKept s t) ∧
    (s.mounted = true → u.flushLog = u →
      (Safety.accepted s r 0x50 = some (u, f) → Safety.oneFrame s r → ∃ t, exec (.storeStatus r) s = .next t ∧ Safety.MemoriesKept s t ∧
        Safety.Answered s t r f 0 (0 :: (leBytes 4 (s.word (nsCommonPage + 0x40)) ++ leBytes 4 (s.word (nsCommonPage + 0x64)) ++
          leBytes 4 (s.word (nsCommonPage + 0x68)) ++ leBytes 8 (s.partFree 1) ++ leBytes 8 (s.partFree 2) ++ leBytes 8 (s.partFree 3)))) ∧
      (∀ (v : State) (bs : List Nat),
        let env := s.xferRd 0 64
        let sig := le env 12 4
        let body := le env 8 4
        let slot := le env 5 1
        let pages := cdiv (le b 1 4) s.pageBytes
        let old := match s.modelAt (le b 0 1) with | some x => x.blocks.length | none => 0
        Safety.accepted s r 0x51 = some (u, f) → le b 0 1 < 16 → le b 1 4 ≤ s.xferBytes → le b 1 4 = 64 + sig + body + 60 → slot < 3 →
        (s.owner slot).state ≠ 3 → s.heldBlocks 1 - old + cdiv pages (max 1 (s.prof 0x0C 2)) ≤ s.quota 1 →
        State.programPages pages (u.closeBlk 1) 1 = (v, some bs) →
        ∃ t x, exec (.modelStore r) s = .next t ∧ t.modelAt (le b 0 1) = some x ∧ x.slot = slot ∧ x.ctr = s.store.counter ∧
          (x.ct, x.tag) = gcmEnc (s.kModel slot) (leBytes 8 s.store.counter ++ zeros 4) env (s.xferRd (64 + sig) body) ∧
          x.clear = s.xferRd 0 (64 + sig) ++ s.xferRd (64 + sig + body) 60 ∧ x.blocks = bs ∧ Safety.MemoriesKept s t ∧
          (Safety.oneFrame s r → Safety.Answered s t r f 0 [0])) ∧
      (Safety.accepted s r 0x52 = some (u, f) → le b 0 1 < 16 → ∃ t, exec (.modelErase r) s = .next t ∧ t.modelAt (le b 0 1) = none ∧
        Safety.MemoriesKept s t ∧ (Safety.oneFrame s r → Safety.Answered s t r f 0 [0])) ∧
      (∀ (nand : NandOutcome) (bs : List Byte) (got skip bad : Nat),
        Safety.accepted s r 0x53 = some (u, f) → le b 8 4 ≤ s.xferBytes →
        s.arcTake (s.getF (ppSess r) PP_SESS_CTRL_slot) (le b 8 4) nand.lost (s.store.arc.filter fun x => decide (le b 0 8 ≤ x.recNo)) =
          (bs, got, skip, bad) →
        ∃ t, exec (.archiveRead r nand) s = .next t ∧ t.gddr = (s.gddrWr s.xferBase bs).gddr ∧ t.stripe = s.stripe ∧ t.spad = s.spad ∧
          t.store.arc = s.store.arc) ∧
      (Safety.accepted s r 0x54 = some (u, f) → le b 8 4 ≤ s.xferBytes →
        let first := max (le b 0 8) s.store.logFirst
        let es := (s.store.logs.drop (first - s.store.logFirst)).take (le b 8 4 / 32)
        ∃ t, exec (.logRead r) s = .next t ∧ t.gddr = (s.gddrWr s.xferBase es.flatten).gddr ∧ t.stripe = s.stripe ∧ t.spad = s.spad ∧
          (Safety.oneFrame s r → Safety.Answered s t r f 0 (0 :: (leBytes 8 first ++ leBytes 4 es.length)))) ∧
      (∀ (a : Nat) (v : State), Safety.accepted s r 0x55 = some (u, f) → u.authorised r f 4 = (some a, v) → le b 0 4 ≤ s.xferBytes →
        ∃ t, exec (.fwWrite r) s = .next t ∧ t.store.fw = setAt s.store.fw s.spareCopy (s.xferRd 0 (le b 0 4)) ∧
          Safety.MemoriesKept s t ∧ (Safety.oneFrame s r → Safety.Answered s t r f 0 [0])))

/-- A mount shows the store mounted with its profile and goes on from the end of the counter reserved, or shows that it failed. A format
empties it, with the factory-bad blocks out of use. The oldest record of the crop area is encrypted and joins the archive. A marked
block, or on uneven wear the coldest, moves its pages to a free block and is erased. A scan starts the block count of reads again.
(16_nand_store.md) -/
def Obligations.StoreUpkeep : Prop :=
  ∀ s : State, s.halted = false →
    (∀ ok : Bool, (s.stage = 3 ∨ s.stage = 4) → s.getF nsCommonPage NS_STAT_state ∈ ([0, 1, 3] : List Nat) → s.store.dirSeq ≠ [] →
      ∃ t, exec (.storeMount ok) s = .next t ∧ Safety.MemoriesKept s t ∧
        t.getF nsCommonPage NS_STAT_state = (if ok then 2 else 4) ∧
        (ok = true → t.getF nsCommonPage NS_STAT_meta_ok = 3 ∧ t.store.counter = s.store.reserved ∧ t.store.openBlk = [] ∧
          t.store.models = s.store.models ∧ t.store.arc = s.store.arc ∧ bit (t.word (nsCommonPage + 0x14)) 0 = true)) ∧
    (∀ factoryBad : List Nat, (s.stage = 3 ∨ s.stage = 4) → s.mounted = false → ∃ t, exec (.storeFormat factoryBad) s = .next t ∧
      t.getF nsCommonPage NS_STAT_state = 3 ∧ t.store.models = [] ∧ t.store.arc = [] ∧ t.store.logs = [] ∧
      t.store.counter = s.store.reserved ∧ Safety.MemoriesKept s t ∧
      ∀ c < 2, ∀ k ∈ s.chanBlocks c, (t.blk k).bad = b01 (factoryBad.contains k) ∧ (t.blk k).erases = (s.blk k).erases) ∧
    (∀ (o : NandOutcome) (c : CropSt) (rest : List CropSt) (v : State) (bs : List Nat),
      let n := c.units * 4096
      let base := s.getF nsCommonPage NS_STG_BASE_base * 64
      let cut := min n (s.getF nsCommonPage NS_STG_SIZE_crop_mib * 2 ^ 20 - c.off)
      let raw := s.gddrRd (base + c.off) cut ++ s.gddrRd base (n - cut)
      let hdr := patch (raw.take 64) 8 (leBytes 8 s.arcNext ++ leBytes 8 s.store.counter)
      let pages := cdiv n s.pageBytes
      s.store.crops = c :: rest → s.mounted = true → s.flushLog = s → State.makeRoom (s.store.arc.length + 1) s pages = s → s.quota 3 ≠ 0 →
      State.programPages pages s 3 = (v, some bs) → o.progFail = false →
      ∃ t x, exec (.archiveWrite o) s = .next t ∧ t.store.crops = rest ∧ t.store.arc = s.store.arc ++ [x] ∧ x.recNo = s.arcNext ∧
        x.header = hdr ∧ (x.ct, x.tag) = gcmEnc (s.kArch (le hdr 5 1)) (leBytes 8 s.store.counter ++ zeros 4) hdr (sub raw 64 (le hdr 0x3C 4)) ∧
        x.blocks = bs ∧ t.getF nsCommonPage NS_ARC_STAT_queued = s.getF nsCommonPage NS_ARC_STAT_queued - 1 ∧
        bit (t.word (nsCommonPage + 0x14)) 1 = true ∧ Safety.MemoriesKept s t) ∧
    (∀ (k g : Nat) (x : BlockSt), s.mounted = true → s.nextFree = some g → s.blk k = x →
      s.store.blocks.find? (fun e => e.2.marked && e.2.owner != 0 && e.2.owner != 4) = some (k, x) →
      ∃ t, exec (.blockRefresh ⟨0, 0, false, false⟩) s = .next t ∧
        t.blk g = { s.blk g with owner := x.owner, pages := (s.blk g).pages + x.pages } ∧
        t.blk k = { BlockSt.fresh with erases := x.erases + 1, bad := x.bad } ∧ Safety.MemoriesKept s t) ∧
    (∀ least k g : Nat,
      let es := s.nativeBlocks
      let hi := (es.map fun i => (s.blk i).erases).foldl max 0
      s.mounted = true → leastBy (fun i => (s.blk i).erases) es = some least → (s.blk least).erases + 500 < hi →
      leastBy (fun i => (s.blk i).erases) (es.filter fun i => (s.blk i).owner != 0) = some k →
      leastBy (fun i => hi - (s.blk i).erases) s.freeBlocks = some g →
      ∃ t, exec .wearLevelCopy s = .next t ∧
        t.blk g = { s.blk g with owner := (s.blk k).owner, pages := (s.blk g).pages + (s.blk k).pages } ∧
        t.blk k = { BlockSt.fresh with erases := (s.blk k).erases + 1, bad := (s.blk k).bad } ∧ Safety.MemoriesKept s t) ∧
    (∀ (k : Nat) (o : NandOutcome), s.mounted = true → (s.blk k).bad = 0 → (s.blk k).owner ≠ 0 →
      ((if (s.blk k).owner = 4 then s.prof 0x1C 4 else s.prof 0x18 4) ≤ (s.blk k).reads →
        ∃ t, exec (.disturbScan k o) s = .next t ∧ (t.blk k).reads = 0 ∧ (t.blk k).erases = (s.blk k).erases ∧ Safety.MemoriesKept s t) ∧
      (s.psState ≠ 5 → ∃ t, exec (.retentionScan k o) s = .next t ∧ (t.blk k).reads = 0 ∧ (t.blk k).scanAt = s.time.elapsed + 1 ∧
        Safety.MemoriesKept s t))

/-- A JOB_LOAD that fails a test shows code and test and binds nothing; one that passes binds the job: its slot holds it and its rinks
are READY in it. JOB_STOP makes the job stop, answered once its scrub is complete; of an empty slot it is answered at once. After
the scrub the slot is empty, its rinks IDLE and their scratchpads zero. COUNTER_DUMP takes a snapshot now and collects it to its
address. VRING_TRAILER sets the key that the ring takes next and its trailer. (22_bring_up.md, 15_security.md,
21_performance_counters.md, 17_host_and_peer_links.md) -/
def Obligations.JobsDumpAndTrailer : Prop :=
  ∀ s : State, s.halted = false →
    (∀ (r : Fin 8) (u : State) (f : List Byte),
      let b := frameBody f
      (∀ e : LoadFail, Safety.accepted s r 0x73 = some (u, f) → u.loadTests b = .error e → codeScope e.code < 3 → e.code < 65536 →
        e.order < 256 → ∃ t, exec (.jobLoad r) s = .next t ∧ t.jobs = s.jobs ∧ t.getF ppMbPage PP_MB_LOAD_code = e.code ∧
          t.getF ppMbPage PP_MB_LOAD_test = e.order ∧ bit (t.word (ppMbPage + 0x14)) 1 = true ∧ Safety.MemoriesKept s t) ∧
      (∀ d : LoadDone, Safety.accepted s r 0x73 = some (u, f) → u.loadTests b = .ok d → ∃ t, exec (.jobLoad r) s = .next t ∧
        t.job (le b 1 1) = some d.job ∧ t.getF ppMbPage PP_MB_LOAD_code = 0 ∧ bit (t.getF ppMbPage PP_MB_STAT_bound) (le b 1 1) = true ∧
        t.enabled (feSlm (le b 1 1)) = true ∧ t.getF (feSlm (le b 1 1)) FE_SLM_STAT_plan = 0 ∧
        (∀ k ∈ d.job.domains, ∀ i < 4, t.rkState (4 * k + i) = 1 ∧ (t.rink (4 * k + i)).job = some (le b 1 1)) ∧
        bit (t.word (ppMbPage + 0x14)) 0 = true ∧ t.stripe = s.stripe) ∧
      (Safety.accepted s r 0x74 = some (u, f) →
        ((4 ≤ le b 0 1 ∨ s.job (le b 0 1) = none) → Safety.oneFrame s r → ∃ t, exec (.jobStop r) s = .next t ∧ t.jobs = s.jobs ∧
          Safety.Answered s t r f 0 [] ∧ Safety.MemoriesKept s t) ∧
        ∀ x : JobSt, le b 0 1 < 4 → s.job (le b 0 1) = some x → x.stopping = false → ∃ t y, exec (.jobStop r) s = .next t ∧
          t.job (le b 0 1) = some y ∧ y.stopping = true ∧ y.sets = [] ∧ y.stopRings = x.stopRings ++ [r.val] ∧ y.domains = x.domains ∧
          bit (t.getF ppMbPage PP_MB_STAT_busy) (le b 0 1) = true ∧ ∀ n ∈ s.rinksOf (le b 0 1), t.rkState n = 5) ∧
      (Safety.accepted s r 0x71 = some (u, f) → s.cnt.collect = none → ∃ t, exec (.counterDump r) s = .next t ∧
        t.cnt.collect = some ⟨s.ns, le b 0 8, false, some r.val⟩ ∧ t.flag pcPage PC_CTRL_busy = true ∧ Safety.MemoriesKept s t) ∧
      (Safety.accepted s r 0x70 = some (u, f) → le b 0 2 < 32 → ∃ t, exec (.vringTrailer r) s = .next t ∧
        (t.vring (le b 0 2)).nextKey = s.kRing (s.getF (ppSess r) PP_SESS_CTRL_slot) (le b 0 2) ∧
        t.flag (pxVr (le b 0 2)) PX_VR_CFG_trailer = (le b 2 1 != 0) ∧ Safety.MemoriesKept s t ∧
        (Safety.oneFrame s r → Safety.Answered s t r f 0 []))) ∧
    (∀ (j : Fin 4) (x : JobSt), s.job j = some x → x.stopping = true → ∃ t, exec (.scrubComplete j) s = .next t ∧ t.job j = none ∧
      bit (t.getF ppMbPage PP_MB_STAT_bound) j = false ∧ bit (t.getF ppMbPage PP_MB_STAT_busy) j = false ∧
      t.enabled (feSlm j) = false ∧ bit (t.word (scPage + 0x14)) 2 = true ∧ bit (t.word (ppMbPage + 0x14)) 2 = true ∧
      t.gddr = s.gddr ∧ ∀ n ∈ s.rinksOf j, t.rkState n = 0 ∧ t.rink n = .idle ∧ ∀ k < 2 ^ 23, memByte t.spad (n * 2 ^ 23 + k) = 0)

/-- Enabling a DOWN port of a node with a number starts training; disabling takes it DOWN and ends its route. Training with all lanes
and a valid exchange brings it UP with the route to its peer; a timeout fails it; silence and a commanded retrain go to RETRAIN. A
flit with a bad CRC, or out of order, is discarded; one in order advances the sequence. A replay sends every unacknowledged flit
again. A WRITE is answered with the code of the window port; a WRITE_RSP acknowledges its bytes; HALO columns go to the receive
slot, and HALO_CREDIT to the rink. The halo tag layout is the choice of this model (log 31). (17_host_and_peer_links.md) -/
def Obligations.TuzerPorts : Prop :=
  ∀ (p : Fin 3) (s : State),
    let x := s.tz p
    (∀ (a : Agent) (v : Word), Safety.Admitted s a (tzPort p) 0x40 →
      (bit v.toNat 0 = true → s.tzState p = 0 → s.nodeSet = true → s.enabled (tzPort p) = true →
        ∃ t, exec (.tzPortEnable a p v) s = .next t ∧ t.tzState p = 1 ∧ (t.tz p).since = s.time.elapsed ∧ Safety.MemoriesKept s t) ∧
      (bit v.toNat 0 = false → ∃ t, exec (.tzPortEnable a p v) s = .next t ∧ t.tzState p = 0 ∧ Safety.MemoriesKept s t ∧
        (s.tzState p = 2 → bit (t.word (tzPort p + 0x14)) 1 = true ∧ t.routeTo (s.getF (tzPort p) TZ_PORT_STAT_peer) = none)) ∧
      (bit v.toNat 0 = true → s.tzState p = 2 → s.enabled (tzPort p) = true → ∃ t, exec (.tzRetrain a p v) s = .next t ∧
        t.tzState p = 3 ∧ t.getF (tzPort p) TZ_PORT_TRAIN_retrains = min (s.getF (tzPort p) TZ_PORT_TRAIN_retrains + 1) 65535 ∧
        (t.tz p).since = s.time.elapsed ∧ (t.tz p).unacked = [] ∧ Safety.MemoriesKept s t)) ∧
    (s.halted = false →
      (∀ m : TzTraining, s.tzState p = 1 → m.lanes = 15 → m.peer.val ≠ s.node → s.routeTo m.peer = none →
        ∃ t, exec (.tzTrainingDone p m) s = .next t ∧ t.tzState p = 2 ∧ t.routeTo m.peer = some p.val ∧
          t.getF (tzPort p) TZ_PORT_STAT_peer = m.peer ∧ t.getF (tzPort p) TZ_PORT_STAT_lanes_ok = 15 ∧
          t.tz p = { TzPortSt.idle with rxq := x.rxq, lastGood := s.time.elapsed, lastAck := s.time.elapsed } ∧
          bit (t.word (tzPort p + 0x14)) 0 = true ∧ Safety.MemoriesKept s t) ∧
      (s.tzState p = 1 → x.since + 10000000 * 2 ^ 32 ≤ s.time.elapsed → ∃ t, exec (.tzTrainingTimeout p) s = .next t ∧
        t.tzState p = 4 ∧ t.getF (tzPort p) TZ_PORT_TRAIN_fails = min (s.getF (tzPort p) TZ_PORT_TRAIN_fails + 1) 65535 ∧
        bit (t.word (tzPort p + 0x14)) 2 = true ∧ Safety.rest t = Safety.rest s) ∧
      (s.tzState p = 2 →
        (x.lastGood + 2000 * 2 ^ 32 ≤ s.time.elapsed → ∃ t, exec (.tzLinkSilent p) s = .next t ∧ t.tzState p = 3 ∧
          bit (t.word (tzPort p + 0x14)) 1 = true ∧ Safety.MemoriesKept s t) ∧
        (∀ flit : List Byte, flit.length = 256 →
          (∃ t, exec (.flitReceive p flit false) s = .next t ∧ t.tz p = { x with hunting := true } ∧
            t.getF (tzPort p) TZ_PORT_ERR_crc = min (s.getF (tzPort p) TZ_PORT_ERR_crc + 1) 65535 ∧ Safety.MemoriesKept s t) ∧
          (x.txq = [] → flitType flit = 1 → ∃ t, exec (.flitReceive p flit true) s = .next t ∧ Safety.MemoriesKept s t ∧
            (t.tz p).lastGood = s.time.elapsed ∧
            (flitSeq flit = x.rxSeq → (t.tz p).rxSeq = (x.rxSeq + 1) % 4096 ∧ (t.tz p).hunting = false) ∧
            (flitSeq flit ≠ x.rxSeq → (t.tz p).rxSeq = x.rxSeq ∧ (t.tz p).hunting = true ∧ (t.tz p).rxq = x.rxq))) ∧
        (x.unacked ≠ [] → x.nakd = true →
          ((∀ u ∈ x.unacked, u.replays < 8) → ∃ t, exec (.flitReplay p true) s = .next t ∧
            (t.tz p).unacked = x.unacked.map (fun u => { u with replays := u.replays + 1 }) ∧ (t.tz p).nakd = false ∧
            t.getF (tzPort p) TZ_PORT_ERR_replays = min (s.getF (tzPort p) TZ_PORT_ERR_replays + 1) 255 ∧
            bit (t.word (tzPort p + 0x14)) 3 = true ∧ Safety.MemoriesKept s t) ∧
          ((∃ u ∈ x.unacked, 8 ≤ u.replays) → ∃ t, exec (.flitReplay p true) s = .next t ∧ t.tzState p = 3))) ∧
      (∀ k : List Byte,
        let gone := s.setTz p { x with rxq := x.rxq.erase k }
        let addr := le k 8 8
        let m := bits addr 3 0
        (x.rxq.find? (fun q => pktType q == 1) = some k →
          let src := bits (le k 1 1) 3 2
          ∀ (v : State) (code q : Nat), gone.winWrite src addr (k.drop 16) = (v, code) → s.routeTo src = some q → (s.tz q).txq = [] →
            1 ≤ (s.tz q).credits.getD 1 0 → (s.tz q).unacked.length < 64 → ∃ t, exec (.write p) s = .next t ∧
              (t.tz q).unacked = (s.tz q).unacked ++ [⟨(s.tz q).txSeq % 4096, tzPacket 2 src s.node 1 (le k 4 4) code [], 0⟩] ∧
              (t.tz p).rxq = x.rxq.erase k ∧ t.gddr = v.gddr ∧ t.stripe = v.stripe ∧ t.spad = v.spad) ∧
        (x.rxq.find? (fun q => pktType q == 2) = some k → ∀ w : Nat × Nat, x.writes.find? (fun e => e.1 == le k 4 4) = some w →
          (s.dmaRun w.2).slot < 8 →
          let left := s.getF (dmCh w.2) DM_SLOTn_CNT_count (s.dmaRun w.2).slot - 256 * (le k 4 4 % 2 ^ 20)
          (bits addr 15 0 = 0 → ∃ t, exec (.writeRsp p) s = .next t ∧ (t.tz p).writes = x.writes.erase w ∧ (t.tz p).rxq = x.rxq.erase k ∧
            t.dmaRun w.2 = { s.dmaRun w.2 with bytes := (s.dmaRun w.2).bytes + min 256 left } ∧ Safety.MemoriesKept s t) ∧
          (bits addr 15 0 ≠ 0 → w.2 < 16 → ∃ t, exec (.writeRsp p) s = .next t ∧ (t.tz p).rxq = x.rxq.erase k ∧
            t.getF (dmCh w.2) DM_SLOTn_CTRL_state (s.dmaRun w.2).slot = 3 ∧
            t.getF (dmCh w.2) DM_SLOTn_CTRL_cause (s.dmaRun w.2).slot = State.winCause (bits addr 15 0))) ∧
        (x.rxq.find? (fun q => pktType q == 3) = some k → ∀ h : HaloEnt, (s.group m).halos[bits (le k 4 4) 7 4]? = some h →
          s.domState (m / 4) = 0 → bits addr 31 8 + (k.length - 16) ≤ haloSlot h → ∃ t, exec (.halo p) s = .next t ∧
            t.spad = (s.spadWr m ((h.rxbuf + bits addr 5 4 * haloSlot h + bits addr 31 8) % 2 ^ 23) (k.drop 16)).spad ∧
            (t.tz p).rxq = x.rxq.erase k ∧ t.gddr = s.gddr ∧ t.stripe = s.stripe ∧
            (t.rink m).inbound.length = (s.rink m).inbound.length + (if bits addr 31 8 + (k.length - 16) < haloSlot h then 0 else 1)) ∧
        (x.rxq.find? (fun q => pktType q == 4) = some k → s.domState (m / 4) = 0 → ∃ t, exec (.haloCredit p) s = .next t ∧
          (t.rink m).credits = (s.rink m).credits ++ [(bits addr 6 4, bit addr 7)] ∧ (t.tz p).rxq = x.rxq.erase k ∧
          Safety.MemoriesKept s t)))
end

