-- ==== Sys2Proof/Laws/Bits.lean ====
section
/-! SUPPORT. The laws of bit fields: what a field reads after a field is written. -/

namespace Sys2Proof.Laws

open Sys2Proof Sys2Proof.Machine

theorem bit_eq_testBit (w i : Nat) : bit w i = w.testBit i := by
  rw [Nat.testBit_eq_decide_div_mod_eq]; unfold bit
  rw [Bool.eq_iff_iff]; simp

theorem testBit_bits (w hi lo i : Nat) : (bits w hi lo).testBit i = (decide (i < hi + 1 - lo) && w.testBit (lo + i)) := by
  unfold bits
  rw [Nat.testBit_mod_two_pow, Nat.testBit_div_two_pow]
  rw [Nat.add_comm i lo]

/-- Bit i of a number with a field replaced: the field's, or the number's own. -/
theorem testBit_setBits (w hi lo v i : Nat) (h : lo ≤ hi) :
    (setBits w hi lo v).testBit i = if lo ≤ i ∧ i ≤ hi then v.testBit (i - lo) else w.testBit i := by
  have e : setBits w hi lo v = 2 ^ (hi + 1) * (w / 2 ^ (hi + 1)) + (2 ^ lo * (v % 2 ^ (hi + 1 - lo)) + w % 2 ^ lo) := by
    unfold setBits; ring
  have h1 : w % 2 ^ lo < 2 ^ lo := Nat.mod_lt _ (Nat.two_pow_pos _)
  have h2 : v % 2 ^ (hi + 1 - lo) < 2 ^ (hi + 1 - lo) := Nat.mod_lt _ (Nat.two_pow_pos _)
  have h3 : 2 ^ lo * (v % 2 ^ (hi + 1 - lo)) + w % 2 ^ lo < 2 ^ (hi + 1) := by
    have : 2 ^ (hi + 1) = 2 ^ lo * 2 ^ (hi + 1 - lo) := by rw [← pow_add]; congr 1; omega
    rw [this]
    calc 2 ^ lo * (v % 2 ^ (hi + 1 - lo)) + w % 2 ^ lo
        < 2 ^ lo * (v % 2 ^ (hi + 1 - lo)) + 2 ^ lo * 1 := by omega
      _ = 2 ^ lo * (v % 2 ^ (hi + 1 - lo) + 1) := by ring
      _ ≤ 2 ^ lo * 2 ^ (hi + 1 - lo) := Nat.mul_le_mul_left _ h2
  rw [e, Nat.testBit_two_pow_mul_add _ h3]
  by_cases hi' : i < hi + 1
  · rw [if_pos hi', Nat.testBit_two_pow_mul_add _ h1]
    by_cases hl : i < lo
    · rw [if_pos hl, Nat.testBit_mod_two_pow]
      have : ¬ (lo ≤ i ∧ i ≤ hi) := by omega
      simp [this, hl]
    · rw [if_neg hl, Nat.testBit_mod_two_pow]
      have : lo ≤ i ∧ i ≤ hi := by omega
      simp [this]; intro; omega
  · rw [if_neg hi', Nat.testBit_div_two_pow]
    have : ¬ (lo ≤ i ∧ i ≤ hi) := by omega
    simp only [this, if_false]; congr 1; omega

/-- A field reads as it was written, cut to its width. -/
theorem bits_setBits_same (w hi lo v : Nat) (h : lo ≤ hi) : bits (setBits w hi lo v) hi lo = v % 2 ^ (hi + 1 - lo) := by
  apply Nat.eq_of_testBit_eq; intro i
  rw [testBit_bits, testBit_setBits _ _ _ _ _ h, Nat.testBit_mod_two_pow]
  by_cases hi' : i < hi + 1 - lo
  · have : lo ≤ lo + i ∧ lo + i ≤ hi := by omega
    simp [hi', this]
  · simp [hi']

/-- A field that shares no bit with the one written reads as before. -/
theorem bits_setBits_disjoint (w hi lo v hi' lo' : Nat) (h : lo ≤ hi) (hd : hi < lo' ∨ hi' < lo) :
    bits (setBits w hi lo v) hi' lo' = bits w hi' lo' := by
  apply Nat.eq_of_testBit_eq; intro i
  rw [testBit_bits, testBit_bits, testBit_setBits _ _ _ _ _ h]
  by_cases hi'' : i < hi' + 1 - lo'
  · have : ¬ (lo ≤ lo' + i ∧ lo' + i ≤ hi) := by omega
    simp [this]
  · simp [hi'']

/-- Cutting a number to 32 bits keeps a field that lies within them. -/
theorem bits_mod_word (w hi lo : Nat) (h : hi < 32) : bits (w % 2 ^ 32) hi lo = bits w hi lo := by
  apply Nat.eq_of_testBit_eq; intro i
  rw [testBit_bits, testBit_bits, Nat.testBit_mod_two_pow]
  by_cases hi' : i < hi + 1 - lo
  · have : lo + i < 32 := by omega
    simp [this]
  · simp [hi']

theorem testBit_setBit (w b i : Nat) : (setBit w b).testBit i = (decide (b = i) || w.testBit i) := by
  unfold setBit; rw [Nat.testBit_or, Nat.testBit_two_pow, Bool.or_comm]

@[simp] theorem bit_setBit_same (w b : Nat) : bit (setBit w b) b = true := by
  rw [bit_eq_testBit, testBit_setBit]; simp

theorem bit_setBit_ne (w : Nat) {b i : Nat} (h : i ≠ b) : bit (setBit w b) i = bit w i := by
  rw [bit_eq_testBit, bit_eq_testBit, testBit_setBit]; simp [Ne.symm h]

theorem setBit_lt {w b : Nat} (hw : w < 2 ^ 32) (hb : b < 32) : setBit w b < 2 ^ 32 :=
  Nat.or_lt_two_pow hw (Nat.pow_lt_pow_right (by omega) hb)

/-- A bit at the number's own position is bit 0 of the field of that one bit. -/
theorem bits_one (w i : Nat) : bits w i i = b01 (bit w i) := by
  unfold bits bit b01
  have : w / 2 ^ i % 2 < 2 := Nat.mod_lt _ (by omega)
  rcases Nat.mod_two_eq_zero_or_one (w / 2 ^ i) with h | h <;> simp [h]

theorem add_eq_or {a b : Nat} (h : a &&& b = 0) : a + b = a ||| b := by
  have ha := Nat.lt_two_pow_self (n := a)
  have hb := Nat.lt_two_pow_self (n := b)
  have pa : 2 ^ a ≤ 2 ^ (a + b) := Nat.pow_le_pow_right (by omega) (by omega)
  have pb : 2 ^ b ≤ 2 ^ (a + b) := Nat.pow_le_pow_right (by omega) (by omega)
  have ps : 2 ^ (a + b + 1) = 2 * 2 ^ (a + b) := by rw [pow_succ]; ring
  have hor : a ||| b < 2 ^ (a + b + 1) := Nat.or_lt_two_pow (by omega) (by omega)
  have := BitVec.add_eq_or_of_and_eq_zero (BitVec.ofNat (a + b + 1) a) (BitVec.ofNat (a + b + 1) b)
    (by apply BitVec.eq_of_toNat_eq; simp [h, ← Nat.and_mod_two_pow])
  have := congrArg BitVec.toNat this
  simp only [BitVec.toNat_add, BitVec.toNat_or, BitVec.toNat_ofNat] at this
  rw [Nat.mod_eq_of_lt (a := a) (by omega), Nat.mod_eq_of_lt (a := b) (by omega), Nat.mod_eq_of_lt (by omega)] at this
  exact this

theorem testBit_clrMask (w m i : Nat) : (clrMask w m).testBit i = (w.testBit i && !m.testBit i) := by
  have hd : (w ^^^ (w &&& m)) &&& (w &&& m) = 0 := by
    apply Nat.eq_of_testBit_eq; intro j
    simp; cases w.testBit j <;> cases m.testBit j <;> simp
  have ho : (w ^^^ (w &&& m)) ||| (w &&& m) = w := by
    apply Nat.eq_of_testBit_eq; intro j
    simp; cases w.testBit j <;> cases m.testBit j <;> simp
  have ha : (w ^^^ (w &&& m)) + (w &&& m) = w := by
    have := add_eq_or hd
    omega
  have h : clrMask w m = w ^^^ (w &&& m) := by unfold clrMask; omega
  rw [h]; simp; cases w.testBit i <;> cases m.testBit i <;> simp

theorem clrMask_lt {w m n : Nat} (h : w < n) : clrMask w m < n := Nat.lt_of_le_of_lt (Nat.sub_le _ _) h

end Sys2Proof.Laws
end

