-- ==== Sys2Proof/Laws/Tables.lean ====
section
/-! SUPPORT. The laws of tables and memories: what is read after a write, and the canonical form. -/

namespace Sys2Proof.Laws

open Sys2Proof Sys2Proof.Machine

variable {α : Type} [DecidableEq α] (d : Nat → α)

omit [DecidableEq α] in
theorem tabGet_tabDel_same (t : Tab α) (k : Nat) : tabGet d (tabDel k t) k = d k := by
  induction t with
  | nil => rfl
  | cons e t ih =>
    by_cases h : e.1 = k
    · simpa [tabDel, h] using ih
    · simp only [tabDel, List.filter_cons, bne_iff_ne, ne_eq, h, not_false_eq_true, if_true, tabGet, Ne.symm h, if_false]
      exact ih

omit [DecidableEq α] in
theorem tabGet_tabDel_ne (t : Tab α) {k j : Nat} (h : j ≠ k) : tabGet d (tabDel k t) j = tabGet d t j := by
  induction t with
  | nil => rfl
  | cons e t ih =>
    by_cases he : e.1 = k
    · have : ¬ j = e.1 := by omega
      simpa [tabDel, he, tabGet, h] using ih
    · simp only [tabDel, List.filter_cons, bne_iff_ne, ne_eq, he, not_false_eq_true, if_true, tabGet]
      split
      · rfl
      · exact ih

/-- The entry just written is what a read finds. -/
@[simp] theorem tabGet_tabPut_same (t : Tab α) (k : Nat) (v : α) : tabGet d (tabPut d t k v) k = v := by
  induction t with
  | nil =>
    unfold tabPut; split
    · next h => simp [tabGet, h]
    · simp [tabGet]
  | cons e t ih =>
    obtain ⟨k', v'⟩ := e
    unfold tabPut
    split
    · next hlt =>
      split
      · next h =>
        simp only [tabGet, Nat.ne_of_lt hlt, if_false]
        rw [tabGet_tabDel_same, h]
      · simp [tabGet]
    · split
      · split
        · next h => rw [tabGet_tabDel_same, h]
        · simp [tabGet]
      · next h => simpa [tabGet, h] using ih

/-- Every other entry reads as before. -/
theorem tabGet_tabPut_ne (t : Tab α) {k j : Nat} (v : α) (h : j ≠ k) : tabGet d (tabPut d t k v) j = tabGet d t j := by
  induction t with
  | nil =>
    unfold tabPut; split
    · rfl
    · simp [tabGet, h]
  | cons e t ih =>
    obtain ⟨k', v'⟩ := e
    unfold tabPut
    split
    · split
      · simp only [tabGet]; split
        · rfl
        · exact tabGet_tabDel_ne d t h
      · simp [tabGet, h]
    · split
      · next hk =>
        subst hk
        split
        · rw [tabGet_tabDel_ne d t h]; simp [tabGet, h]
        · simp [tabGet, h]
      · simp only [tabGet]; split
        · rfl
        · exact ih

/-- A read after a write, at any two numbers. -/
theorem tabGet_tabPut (t : Tab α) (k j : Nat) (v : α) :
    tabGet d (tabPut d t k v) j = if j = k then v else tabGet d t j := by
  by_cases h : j = k
  · subst h; simp
  · simp [h, tabGet_tabPut_ne d t v h]

theorem tabWfFrom_mono {lo lo' : Nat} (h : lo' ≤ lo) (t : Tab α) (w : tabWfFrom d lo t = true) : tabWfFrom d lo' t = true := by
  cases t with
  | nil => rfl
  | cons e t =>
    simp only [tabWfFrom, Bool.and_eq_true, decide_eq_true_eq] at w ⊢
    exact ⟨⟨by omega, w.1.2⟩, w.2⟩

omit [DecidableEq α] in
theorem tabDel_above {lo k : Nat} [DecidableEq α] (t : Tab α) (w : tabWfFrom d lo t = true) (h : k < lo) : tabDel k t = t := by
  induction t generalizing lo with
  | nil => rfl
  | cons e t ih =>
    simp only [tabWfFrom, Bool.and_eq_true, decide_eq_true_eq] at w
    have he : (e.1 != k) = true := by simp; omega
    simp only [tabDel, List.filter_cons, he, if_true]
    congr 1
    exact ih w.2 (by omega)

theorem tabWfFrom_tabPut {lo k : Nat} (t : Tab α) (v : α) (w : tabWfFrom d lo t = true) (h : lo ≤ k) :
    tabWfFrom d lo (tabPut d t k v) = true := by
  induction t generalizing lo with
  | nil =>
    unfold tabPut; split
    · rfl
    · next hv => simp [tabWfFrom, h, hv]
  | cons e t ih =>
    obtain ⟨k', v'⟩ := e
    simp only [tabWfFrom, Bool.and_eq_true, decide_eq_true_eq] at w
    unfold tabPut
    split
    · split
      · rw [tabDel_above d t w.2 (by omega)]
        simp [tabWfFrom, w.1.1, w.1.2, w.2]
      · next hk hv =>
        have : k + 1 ≤ k' := hk
        simp [tabWfFrom, h, hv, w.1.2, w.2, this]
    · split
      · next hk =>
        subst hk
        split
        · rw [tabDel_above d t w.2 (by omega)]
          exact tabWfFrom_mono d (by omega) t w.2
        · next hv => simp [tabWfFrom, h, hv, w.2]
      · simp only [tabWfFrom, Bool.and_eq_true, decide_eq_true_eq]
        exact ⟨w.1, ih w.2 (by omega)⟩

/-- A write keeps the canonical form. -/
theorem tabWf_tabPut (t : Tab α) (k : Nat) (v : α) (w : tabWf d t = true) : tabWf d (tabPut d t k v) = true :=
  tabWfFrom_tabPut d t v w (Nat.zero_le k)

/-! ### Memories -/

@[simp] theorem memByte_memPut_same (m : List Host.Cell) (a : Nat) (b : Byte) : memByte (memPut m a b) a = b := by
  simp [memByte, memPut]

theorem memByte_memPut_ne (m : List Host.Cell) {a x : Nat} (b : Byte) (h : x ≠ a) : memByte (memPut m a b) x = memByte m x := by
  simp [memByte, memPut, tabGet_tabPut_ne _ _ _ h]

theorem wf_memPut (m : List Host.Cell) (a : Nat) (b : Byte) (w : Memory.wf m = true) : Memory.wf (memPut m a b) = true :=
  tabWf_tabPut _ m a b w

/-- Every memory write keeps the canonical form. -/
theorem wf_memWrite (bs : List Byte) (m : List Host.Cell) (a : Nat) (w : Memory.wf m = true) : Memory.wf (memWrite m a bs) = true := by
  induction bs generalizing m a with
  | nil => simpa [memWrite] using w
  | cons b bs ih => simpa [memWrite] using ih _ _ (wf_memPut m a b w)

/-- A byte outside what a write covers reads as before. -/
theorem memByte_memWrite_out (bs : List Byte) (m : List Host.Cell) (a x : Nat) (h : x < a ∨ a + bs.length ≤ x) :
    memByte (memWrite m a bs) x = memByte m x := by
  induction bs generalizing m a with
  | nil => rfl
  | cons b bs ih =>
    simp only [List.length_cons] at h
    rw [memWrite, ih _ _ (by omega), memByte_memPut_ne _ _ (by omega)]

/-- A byte that a write covers reads as written. -/
theorem memByte_memWrite_in (bs : List Byte) (m : List Host.Cell) (a i : Nat) (h : i < bs.length) :
    memByte (memWrite m a bs) (a + i) = bs[i] := by
  induction bs generalizing m a i with
  | nil => simp at h
  | cons b bs ih =>
    cases i with
    | zero =>
      rw [memWrite, memByte_memWrite_out _ _ _ _ (by omega)]
      simp
    | succ i =>
      have := ih (memPut m a b) (a + 1) i (by simpa using h)
      rw [memWrite]
      have e : a + (i + 1) = a + 1 + i := by omega
      rw [e, this]
      simp

/-- What was written is read back. -/
theorem memRead_memWrite (bs : List Byte) (m : List Host.Cell) (a : Nat) : memRead (memWrite m a bs) a bs.length = bs := by
  apply List.ext_getElem
  · simp [memRead]
  · intro i h1 h2
    simp only [memRead, List.getElem_map, List.getElem_range]
    exact memByte_memWrite_in bs m a i h2

end Sys2Proof.Laws
end

