-- ==== Sys2Proof/Laws/State.lean ====
section
/-! SUPPORT. What each named update of the state leaves as it is: one lemma per field per update, and what a register word or a field
reads after a write. -/

namespace Sys2Proof.Laws

open Sys2Proof Sys2Proof.Machine Sys2Proof.Machine.State

/-! ### setWord -/

@[simp] theorem setWord_pending (s : State) (k v : Nat) : (s.setWord k v).pending = s.pending := rfl
@[simp] theorem setWord_woDone (s : State) (k v : Nat) : (s.setWord k v).woDone = s.woDone := rfl
@[simp] theorem setWord_softBusy (s : State) (k v : Nat) : (s.setWord k v).softBusy = s.softBusy := rfl
@[simp] theorem setWord_readyReached (s : State) (k v : Nat) : (s.setWord k v).readyReached = s.readyReached := rfl
@[simp] theorem setWord_marks (s : State) (k v : Nat) : (s.setWord k v).marks = s.marks := rfl
@[simp] theorem setWord_host (s : State) (k v : Nat) : (s.setWord k v).host = s.host := rfl
@[simp] theorem setWord_gddr (s : State) (k v : Nat) : (s.setWord k v).gddr = s.gddr := rfl
@[simp] theorem setWord_stripe (s : State) (k v : Nat) : (s.setWord k v).stripe = s.stripe := rfl
@[simp] theorem setWord_spad (s : State) (k v : Nat) : (s.setWord k v).spad = s.spad := rfl
@[simp] theorem setWord_time (s : State) (k v : Nat) : (s.setWord k v).time = s.time := rfl
@[simp] theorem setWord_power (s : State) (k v : Nat) : (s.setWord k v).power = s.power := rfl
@[simp] theorem setWord_wax (s : State) (k v : Nat) : (s.setWord k v).wax = s.wax := rfl
@[simp] theorem setWord_domains (s : State) (k v : Nat) : (s.setWord k v).domains = s.domains := rfl
@[simp] theorem setWord_link (s : State) (k v : Nat) : (s.setWord k v).link = s.link := rfl
@[simp] theorem setWord_cnt (s : State) (k v : Nat) : (s.setWord k v).cnt = s.cnt := rfl
@[simp] theorem setWord_fe (s : State) (k v : Nat) : (s.setWord k v).fe = s.fe := rfl
@[simp] theorem setWord_cores (s : State) (k v : Nat) : (s.setWord k v).cores = s.cores := rfl
@[simp] theorem setWord_rinks (s : State) (k v : Nat) : (s.setWord k v).rinks = s.rinks := rfl
@[simp] theorem setWord_move (s : State) (k v : Nat) : (s.setWord k v).move = s.move := rfl
@[simp] theorem setWord_jobs (s : State) (k v : Nat) : (s.setWord k v).jobs = s.jobs := rfl
@[simp] theorem setWord_vrings (s : State) (k v : Nat) : (s.setWord k v).vrings = s.vrings := rfl
@[simp] theorem setWord_tuzer (s : State) (k v : Nat) : (s.setWord k v).tuzer = s.tuzer := rfl
@[simp] theorem setWord_keys (s : State) (k v : Nat) : (s.setWord k v).keys = s.keys := rfl
@[simp] theorem setWord_sec (s : State) (k v : Nat) : (s.setWord k v).sec = s.sec := rfl
@[simp] theorem setWord_store (s : State) (k v : Nat) : (s.setWord k v).store = s.store := rfl
@[simp] theorem setWord_rdata (s : State) (k v : Nat) : (s.setWord k v).rdata = s.rdata := rfl
@[simp] theorem setWord_rbytes (s : State) (k v : Nat) : (s.setWord k v).rbytes = s.rbytes := rfl
@[simp] theorem setWord_freeCtr (s : State) (k v : Nat) : (s.setWord k v).freeCtr = s.freeCtr := rfl

/-! ### setF -/

@[simp] theorem setF_pending (s : State) (p : Nat) (f : Fld) (v i : Nat) : (s.setF p f v i).pending = s.pending := rfl
@[simp] theorem setF_woDone (s : State) (p : Nat) (f : Fld) (v i : Nat) : (s.setF p f v i).woDone = s.woDone := rfl
@[simp] theorem setF_softBusy (s : State) (p : Nat) (f : Fld) (v i : Nat) : (s.setF p f v i).softBusy = s.softBusy := rfl
@[simp] theorem setF_readyReached (s : State) (p : Nat) (f : Fld) (v i : Nat) : (s.setF p f v i).readyReached = s.readyReached := rfl
@[simp] theorem setF_marks (s : State) (p : Nat) (f : Fld) (v i : Nat) : (s.setF p f v i).marks = s.marks := rfl
@[simp] theorem setF_host (s : State) (p : Nat) (f : Fld) (v i : Nat) : (s.setF p f v i).host = s.host := rfl
@[simp] theorem setF_gddr (s : State) (p : Nat) (f : Fld) (v i : Nat) : (s.setF p f v i).gddr = s.gddr := rfl
@[simp] theorem setF_stripe (s : State) (p : Nat) (f : Fld) (v i : Nat) : (s.setF p f v i).stripe = s.stripe := rfl
@[simp] theorem setF_spad (s : State) (p : Nat) (f : Fld) (v i : Nat) : (s.setF p f v i).spad = s.spad := rfl
@[simp] theorem setF_time (s : State) (p : Nat) (f : Fld) (v i : Nat) : (s.setF p f v i).time = s.time := rfl
@[simp] theorem setF_power (s : State) (p : Nat) (f : Fld) (v i : Nat) : (s.setF p f v i).power = s.power := rfl
@[simp] theorem setF_wax (s : State) (p : Nat) (f : Fld) (v i : Nat) : (s.setF p f v i).wax = s.wax := rfl
@[simp] theorem setF_domains (s : State) (p : Nat) (f : Fld) (v i : Nat) : (s.setF p f v i).domains = s.domains := rfl
@[simp] theorem setF_link (s : State) (p : Nat) (f : Fld) (v i : Nat) : (s.setF p f v i).link = s.link := rfl
@[simp] theorem setF_cnt (s : State) (p : Nat) (f : Fld) (v i : Nat) : (s.setF p f v i).cnt = s.cnt := rfl
@[simp] theorem setF_fe (s : State) (p : Nat) (f : Fld) (v i : Nat) : (s.setF p f v i).fe = s.fe := rfl
@[simp] theorem setF_cores (s : State) (p : Nat) (f : Fld) (v i : Nat) : (s.setF p f v i).cores = s.cores := rfl
@[simp] theorem setF_rinks (s : State) (p : Nat) (f : Fld) (v i : Nat) : (s.setF p f v i).rinks = s.rinks := rfl
@[simp] theorem setF_move (s : State) (p : Nat) (f : Fld) (v i : Nat) : (s.setF p f v i).move = s.move := rfl
@[simp] theorem setF_jobs (s : State) (p : Nat) (f : Fld) (v i : Nat) : (s.setF p f v i).jobs = s.jobs := rfl
@[simp] theorem setF_vrings (s : State) (p : Nat) (f : Fld) (v i : Nat) : (s.setF p f v i).vrings = s.vrings := rfl
@[simp] theorem setF_tuzer (s : State) (p : Nat) (f : Fld) (v i : Nat) : (s.setF p f v i).tuzer = s.tuzer := rfl
@[simp] theorem setF_keys (s : State) (p : Nat) (f : Fld) (v i : Nat) : (s.setF p f v i).keys = s.keys := rfl
@[simp] theorem setF_sec (s : State) (p : Nat) (f : Fld) (v i : Nat) : (s.setF p f v i).sec = s.sec := rfl
@[simp] theorem setF_store (s : State) (p : Nat) (f : Fld) (v i : Nat) : (s.setF p f v i).store = s.store := rfl
@[simp] theorem setF_rdata (s : State) (p : Nat) (f : Fld) (v i : Nat) : (s.setF p f v i).rdata = s.rdata := rfl
@[simp] theorem setF_rbytes (s : State) (p : Nat) (f : Fld) (v i : Nat) : (s.setF p f v i).rbytes = s.rbytes := rfl
@[simp] theorem setF_freeCtr (s : State) (p : Nat) (f : Fld) (v i : Nat) : (s.setF p f v i).freeCtr = s.freeCtr := rfl

/-! ### satF -/

@[simp] theorem satF_pending (s : State) (p : Nat) (f : Fld) (n i : Nat) : (s.satF p f n i).pending = s.pending := rfl
@[simp] theorem satF_woDone (s : State) (p : Nat) (f : Fld) (n i : Nat) : (s.satF p f n i).woDone = s.woDone := rfl
@[simp] theorem satF_softBusy (s : State) (p : Nat) (f : Fld) (n i : Nat) : (s.satF p f n i).softBusy = s.softBusy := rfl
@[simp] theorem satF_readyReached (s : State) (p : Nat) (f : Fld) (n i : Nat) : (s.satF p f n i).readyReached = s.readyReached := rfl
@[simp] theorem satF_marks (s : State) (p : Nat) (f : Fld) (n i : Nat) : (s.satF p f n i).marks = s.marks := rfl
@[simp] theorem satF_host (s : State) (p : Nat) (f : Fld) (n i : Nat) : (s.satF p f n i).host = s.host := rfl
@[simp] theorem satF_gddr (s : State) (p : Nat) (f : Fld) (n i : Nat) : (s.satF p f n i).gddr = s.gddr := rfl
@[simp] theorem satF_stripe (s : State) (p : Nat) (f : Fld) (n i : Nat) : (s.satF p f n i).stripe = s.stripe := rfl
@[simp] theorem satF_spad (s : State) (p : Nat) (f : Fld) (n i : Nat) : (s.satF p f n i).spad = s.spad := rfl
@[simp] theorem satF_time (s : State) (p : Nat) (f : Fld) (n i : Nat) : (s.satF p f n i).time = s.time := rfl
@[simp] theorem satF_power (s : State) (p : Nat) (f : Fld) (n i : Nat) : (s.satF p f n i).power = s.power := rfl
@[simp] theorem satF_wax (s : State) (p : Nat) (f : Fld) (n i : Nat) : (s.satF p f n i).wax = s.wax := rfl
@[simp] theorem satF_domains (s : State) (p : Nat) (f : Fld) (n i : Nat) : (s.satF p f n i).domains = s.domains := rfl
@[simp] theorem satF_link (s : State) (p : Nat) (f : Fld) (n i : Nat) : (s.satF p f n i).link = s.link := rfl
@[simp] theorem satF_cnt (s : State) (p : Nat) (f : Fld) (n i : Nat) : (s.satF p f n i).cnt = s.cnt := rfl
@[simp] theorem satF_fe (s : State) (p : Nat) (f : Fld) (n i : Nat) : (s.satF p f n i).fe = s.fe := rfl
@[simp] theorem satF_cores (s : State) (p : Nat) (f : Fld) (n i : Nat) : (s.satF p f n i).cores = s.cores := rfl
@[simp] theorem satF_rinks (s : State) (p : Nat) (f : Fld) (n i : Nat) : (s.satF p f n i).rinks = s.rinks := rfl
@[simp] theorem satF_move (s : State) (p : Nat) (f : Fld) (n i : Nat) : (s.satF p f n i).move = s.move := rfl
@[simp] theorem satF_jobs (s : State) (p : Nat) (f : Fld) (n i : Nat) : (s.satF p f n i).jobs = s.jobs := rfl
@[simp] theorem satF_vrings (s : State) (p : Nat) (f : Fld) (n i : Nat) : (s.satF p f n i).vrings = s.vrings := rfl
@[simp] theorem satF_tuzer (s : State) (p : Nat) (f : Fld) (n i : Nat) : (s.satF p f n i).tuzer = s.tuzer := rfl
@[simp] theorem satF_keys (s : State) (p : Nat) (f : Fld) (n i : Nat) : (s.satF p f n i).keys = s.keys := rfl
@[simp] theorem satF_sec (s : State) (p : Nat) (f : Fld) (n i : Nat) : (s.satF p f n i).sec = s.sec := rfl
@[simp] theorem satF_store (s : State) (p : Nat) (f : Fld) (n i : Nat) : (s.satF p f n i).store = s.store := rfl
@[simp] theorem satF_rdata (s : State) (p : Nat) (f : Fld) (n i : Nat) : (s.satF p f n i).rdata = s.rdata := rfl
@[simp] theorem satF_rbytes (s : State) (p : Nat) (f : Fld) (n i : Nat) : (s.satF p f n i).rbytes = s.rbytes := rfl
@[simp] theorem satF_freeCtr (s : State) (p : Nat) (f : Fld) (n i : Nat) : (s.satF p f n i).freeCtr = s.freeCtr := rfl

/-! ### wrapF -/

@[simp] theorem wrapF_pending (s : State) (p : Nat) (f : Fld) (n i : Nat) : (s.wrapF p f n i).pending = s.pending := rfl
@[simp] theorem wrapF_woDone (s : State) (p : Nat) (f : Fld) (n i : Nat) : (s.wrapF p f n i).woDone = s.woDone := rfl
@[simp] theorem wrapF_softBusy (s : State) (p : Nat) (f : Fld) (n i : Nat) : (s.wrapF p f n i).softBusy = s.softBusy := rfl
@[simp] theorem wrapF_readyReached (s : State) (p : Nat) (f : Fld) (n i : Nat) : (s.wrapF p f n i).readyReached = s.readyReached := rfl
@[simp] theorem wrapF_marks (s : State) (p : Nat) (f : Fld) (n i : Nat) : (s.wrapF p f n i).marks = s.marks := rfl
@[simp] theorem wrapF_host (s : State) (p : Nat) (f : Fld) (n i : Nat) : (s.wrapF p f n i).host = s.host := rfl
@[simp] theorem wrapF_gddr (s : State) (p : Nat) (f : Fld) (n i : Nat) : (s.wrapF p f n i).gddr = s.gddr := rfl
@[simp] theorem wrapF_stripe (s : State) (p : Nat) (f : Fld) (n i : Nat) : (s.wrapF p f n i).stripe = s.stripe := rfl
@[simp] theorem wrapF_spad (s : State) (p : Nat) (f : Fld) (n i : Nat) : (s.wrapF p f n i).spad = s.spad := rfl
@[simp] theorem wrapF_time (s : State) (p : Nat) (f : Fld) (n i : Nat) : (s.wrapF p f n i).time = s.time := rfl
@[simp] theorem wrapF_power (s : State) (p : Nat) (f : Fld) (n i : Nat) : (s.wrapF p f n i).power = s.power := rfl
@[simp] theorem wrapF_wax (s : State) (p : Nat) (f : Fld) (n i : Nat) : (s.wrapF p f n i).wax = s.wax := rfl
@[simp] theorem wrapF_domains (s : State) (p : Nat) (f : Fld) (n i : Nat) : (s.wrapF p f n i).domains = s.domains := rfl
@[simp] theorem wrapF_link (s : State) (p : Nat) (f : Fld) (n i : Nat) : (s.wrapF p f n i).link = s.link := rfl
@[simp] theorem wrapF_cnt (s : State) (p : Nat) (f : Fld) (n i : Nat) : (s.wrapF p f n i).cnt = s.cnt := rfl
@[simp] theorem wrapF_fe (s : State) (p : Nat) (f : Fld) (n i : Nat) : (s.wrapF p f n i).fe = s.fe := rfl
@[simp] theorem wrapF_cores (s : State) (p : Nat) (f : Fld) (n i : Nat) : (s.wrapF p f n i).cores = s.cores := rfl
@[simp] theorem wrapF_rinks (s : State) (p : Nat) (f : Fld) (n i : Nat) : (s.wrapF p f n i).rinks = s.rinks := rfl
@[simp] theorem wrapF_move (s : State) (p : Nat) (f : Fld) (n i : Nat) : (s.wrapF p f n i).move = s.move := rfl
@[simp] theorem wrapF_jobs (s : State) (p : Nat) (f : Fld) (n i : Nat) : (s.wrapF p f n i).jobs = s.jobs := rfl
@[simp] theorem wrapF_vrings (s : State) (p : Nat) (f : Fld) (n i : Nat) : (s.wrapF p f n i).vrings = s.vrings := rfl
@[simp] theorem wrapF_tuzer (s : State) (p : Nat) (f : Fld) (n i : Nat) : (s.wrapF p f n i).tuzer = s.tuzer := rfl
@[simp] theorem wrapF_keys (s : State) (p : Nat) (f : Fld) (n i : Nat) : (s.wrapF p f n i).keys = s.keys := rfl
@[simp] theorem wrapF_sec (s : State) (p : Nat) (f : Fld) (n i : Nat) : (s.wrapF p f n i).sec = s.sec := rfl
@[simp] theorem wrapF_store (s : State) (p : Nat) (f : Fld) (n i : Nat) : (s.wrapF p f n i).store = s.store := rfl
@[simp] theorem wrapF_rdata (s : State) (p : Nat) (f : Fld) (n i : Nat) : (s.wrapF p f n i).rdata = s.rdata := rfl
@[simp] theorem wrapF_rbytes (s : State) (p : Nat) (f : Fld) (n i : Nat) : (s.wrapF p f n i).rbytes = s.rbytes := rfl
@[simp] theorem wrapF_freeCtr (s : State) (p : Nat) (f : Fld) (n i : Nat) : (s.wrapF p f n i).freeCtr = s.freeCtr := rfl

/-! ### set64 -/

@[simp] theorem set64_pending (s : State) (p : Nat) (f g : Fld) (v i : Nat) : (s.set64 p f g v i).pending = s.pending := rfl
@[simp] theorem set64_woDone (s : State) (p : Nat) (f g : Fld) (v i : Nat) : (s.set64 p f g v i).woDone = s.woDone := rfl
@[simp] theorem set64_softBusy (s : State) (p : Nat) (f g : Fld) (v i : Nat) : (s.set64 p f g v i).softBusy = s.softBusy := rfl
@[simp] theorem set64_readyReached (s : State) (p : Nat) (f g : Fld) (v i : Nat) : (s.set64 p f g v i).readyReached = s.readyReached := rfl
@[simp] theorem set64_marks (s : State) (p : Nat) (f g : Fld) (v i : Nat) : (s.set64 p f g v i).marks = s.marks := rfl
@[simp] theorem set64_host (s : State) (p : Nat) (f g : Fld) (v i : Nat) : (s.set64 p f g v i).host = s.host := rfl
@[simp] theorem set64_gddr (s : State) (p : Nat) (f g : Fld) (v i : Nat) : (s.set64 p f g v i).gddr = s.gddr := rfl
@[simp] theorem set64_stripe (s : State) (p : Nat) (f g : Fld) (v i : Nat) : (s.set64 p f g v i).stripe = s.stripe := rfl
@[simp] theorem set64_spad (s : State) (p : Nat) (f g : Fld) (v i : Nat) : (s.set64 p f g v i).spad = s.spad := rfl
@[simp] theorem set64_time (s : State) (p : Nat) (f g : Fld) (v i : Nat) : (s.set64 p f g v i).time = s.time := rfl
@[simp] theorem set64_power (s : State) (p : Nat) (f g : Fld) (v i : Nat) : (s.set64 p f g v i).power = s.power := rfl
@[simp] theorem set64_wax (s : State) (p : Nat) (f g : Fld) (v i : Nat) : (s.set64 p f g v i).wax = s.wax := rfl
@[simp] theorem set64_domains (s : State) (p : Nat) (f g : Fld) (v i : Nat) : (s.set64 p f g v i).domains = s.domains := rfl
@[simp] theorem set64_link (s : State) (p : Nat) (f g : Fld) (v i : Nat) : (s.set64 p f g v i).link = s.link := rfl
@[simp] theorem set64_cnt (s : State) (p : Nat) (f g : Fld) (v i : Nat) : (s.set64 p f g v i).cnt = s.cnt := rfl
@[simp] theorem set64_fe (s : State) (p : Nat) (f g : Fld) (v i : Nat) : (s.set64 p f g v i).fe = s.fe := rfl
@[simp] theorem set64_cores (s : State) (p : Nat) (f g : Fld) (v i : Nat) : (s.set64 p f g v i).cores = s.cores := rfl
@[simp] theorem set64_rinks (s : State) (p : Nat) (f g : Fld) (v i : Nat) : (s.set64 p f g v i).rinks = s.rinks := rfl
@[simp] theorem set64_move (s : State) (p : Nat) (f g : Fld) (v i : Nat) : (s.set64 p f g v i).move = s.move := rfl
@[simp] theorem set64_jobs (s : State) (p : Nat) (f g : Fld) (v i : Nat) : (s.set64 p f g v i).jobs = s.jobs := rfl
@[simp] theorem set64_vrings (s : State) (p : Nat) (f g : Fld) (v i : Nat) : (s.set64 p f g v i).vrings = s.vrings := rfl
@[simp] theorem set64_tuzer (s : State) (p : Nat) (f g : Fld) (v i : Nat) : (s.set64 p f g v i).tuzer = s.tuzer := rfl
@[simp] theorem set64_keys (s : State) (p : Nat) (f g : Fld) (v i : Nat) : (s.set64 p f g v i).keys = s.keys := rfl
@[simp] theorem set64_sec (s : State) (p : Nat) (f g : Fld) (v i : Nat) : (s.set64 p f g v i).sec = s.sec := rfl
@[simp] theorem set64_store (s : State) (p : Nat) (f g : Fld) (v i : Nat) : (s.set64 p f g v i).store = s.store := rfl
@[simp] theorem set64_rdata (s : State) (p : Nat) (f g : Fld) (v i : Nat) : (s.set64 p f g v i).rdata = s.rdata := rfl
@[simp] theorem set64_rbytes (s : State) (p : Nat) (f g : Fld) (v i : Nat) : (s.set64 p f g v i).rbytes = s.rbytes := rfl
@[simp] theorem set64_freeCtr (s : State) (p : Nat) (f g : Fld) (v i : Nat) : (s.set64 p f g v i).freeCtr = s.freeCtr := rfl

/-! ### hostWr -/

@[simp] theorem hostWr_pending (s : State) (a : Nat) (bs : List Byte) : (s.hostWr a bs).pending = s.pending := rfl
@[simp] theorem hostWr_regs (s : State) (a : Nat) (bs : List Byte) : (s.hostWr a bs).regs = s.regs := rfl
@[simp] theorem hostWr_woDone (s : State) (a : Nat) (bs : List Byte) : (s.hostWr a bs).woDone = s.woDone := rfl
@[simp] theorem hostWr_softBusy (s : State) (a : Nat) (bs : List Byte) : (s.hostWr a bs).softBusy = s.softBusy := rfl
@[simp] theorem hostWr_readyReached (s : State) (a : Nat) (bs : List Byte) : (s.hostWr a bs).readyReached = s.readyReached := rfl
@[simp] theorem hostWr_marks (s : State) (a : Nat) (bs : List Byte) : (s.hostWr a bs).marks = s.marks := rfl
@[simp] theorem hostWr_gddr (s : State) (a : Nat) (bs : List Byte) : (s.hostWr a bs).gddr = s.gddr := rfl
@[simp] theorem hostWr_stripe (s : State) (a : Nat) (bs : List Byte) : (s.hostWr a bs).stripe = s.stripe := rfl
@[simp] theorem hostWr_spad (s : State) (a : Nat) (bs : List Byte) : (s.hostWr a bs).spad = s.spad := rfl
@[simp] theorem hostWr_time (s : State) (a : Nat) (bs : List Byte) : (s.hostWr a bs).time = s.time := rfl
@[simp] theorem hostWr_power (s : State) (a : Nat) (bs : List Byte) : (s.hostWr a bs).power = s.power := rfl
@[simp] theorem hostWr_wax (s : State) (a : Nat) (bs : List Byte) : (s.hostWr a bs).wax = s.wax := rfl
@[simp] theorem hostWr_domains (s : State) (a : Nat) (bs : List Byte) : (s.hostWr a bs).domains = s.domains := rfl
@[simp] theorem hostWr_link (s : State) (a : Nat) (bs : List Byte) : (s.hostWr a bs).link = s.link := rfl
@[simp] theorem hostWr_cnt (s : State) (a : Nat) (bs : List Byte) : (s.hostWr a bs).cnt = s.cnt := rfl
@[simp] theorem hostWr_fe (s : State) (a : Nat) (bs : List Byte) : (s.hostWr a bs).fe = s.fe := rfl
@[simp] theorem hostWr_cores (s : State) (a : Nat) (bs : List Byte) : (s.hostWr a bs).cores = s.cores := rfl
@[simp] theorem hostWr_rinks (s : State) (a : Nat) (bs : List Byte) : (s.hostWr a bs).rinks = s.rinks := rfl
@[simp] theorem hostWr_move (s : State) (a : Nat) (bs : List Byte) : (s.hostWr a bs).move = s.move := rfl
@[simp] theorem hostWr_jobs (s : State) (a : Nat) (bs : List Byte) : (s.hostWr a bs).jobs = s.jobs := rfl
@[simp] theorem hostWr_vrings (s : State) (a : Nat) (bs : List Byte) : (s.hostWr a bs).vrings = s.vrings := rfl
@[simp] theorem hostWr_tuzer (s : State) (a : Nat) (bs : List Byte) : (s.hostWr a bs).tuzer = s.tuzer := rfl
@[simp] theorem hostWr_keys (s : State) (a : Nat) (bs : List Byte) : (s.hostWr a bs).keys = s.keys := rfl
@[simp] theorem hostWr_sec (s : State) (a : Nat) (bs : List Byte) : (s.hostWr a bs).sec = s.sec := rfl
@[simp] theorem hostWr_store (s : State) (a : Nat) (bs : List Byte) : (s.hostWr a bs).store = s.store := rfl
@[simp] theorem hostWr_rdata (s : State) (a : Nat) (bs : List Byte) : (s.hostWr a bs).rdata = s.rdata := rfl
@[simp] theorem hostWr_rbytes (s : State) (a : Nat) (bs : List Byte) : (s.hostWr a bs).rbytes = s.rbytes := rfl
@[simp] theorem hostWr_freeCtr (s : State) (a : Nat) (bs : List Byte) : (s.hostWr a bs).freeCtr = s.freeCtr := rfl

/-! ### stripeWr -/

@[simp] theorem stripeWr_pending (s : State) (a : Nat) (bs : List Byte) : (s.stripeWr a bs).pending = s.pending := rfl
@[simp] theorem stripeWr_regs (s : State) (a : Nat) (bs : List Byte) : (s.stripeWr a bs).regs = s.regs := rfl
@[simp] theorem stripeWr_woDone (s : State) (a : Nat) (bs : List Byte) : (s.stripeWr a bs).woDone = s.woDone := rfl
@[simp] theorem stripeWr_softBusy (s : State) (a : Nat) (bs : List Byte) : (s.stripeWr a bs).softBusy = s.softBusy := rfl
@[simp] theorem stripeWr_readyReached (s : State) (a : Nat) (bs : List Byte) : (s.stripeWr a bs).readyReached = s.readyReached := rfl
@[simp] theorem stripeWr_marks (s : State) (a : Nat) (bs : List Byte) : (s.stripeWr a bs).marks = s.marks := rfl
@[simp] theorem stripeWr_host (s : State) (a : Nat) (bs : List Byte) : (s.stripeWr a bs).host = s.host := rfl
@[simp] theorem stripeWr_gddr (s : State) (a : Nat) (bs : List Byte) : (s.stripeWr a bs).gddr = s.gddr := rfl
@[simp] theorem stripeWr_spad (s : State) (a : Nat) (bs : List Byte) : (s.stripeWr a bs).spad = s.spad := rfl
@[simp] theorem stripeWr_time (s : State) (a : Nat) (bs : List Byte) : (s.stripeWr a bs).time = s.time := rfl
@[simp] theorem stripeWr_power (s : State) (a : Nat) (bs : List Byte) : (s.stripeWr a bs).power = s.power := rfl
@[simp] theorem stripeWr_wax (s : State) (a : Nat) (bs : List Byte) : (s.stripeWr a bs).wax = s.wax := rfl
@[simp] theorem stripeWr_domains (s : State) (a : Nat) (bs : List Byte) : (s.stripeWr a bs).domains = s.domains := rfl
@[simp] theorem stripeWr_link (s : State) (a : Nat) (bs : List Byte) : (s.stripeWr a bs).link = s.link := rfl
@[simp] theorem stripeWr_cnt (s : State) (a : Nat) (bs : List Byte) : (s.stripeWr a bs).cnt = s.cnt := rfl
@[simp] theorem stripeWr_fe (s : State) (a : Nat) (bs : List Byte) : (s.stripeWr a bs).fe = s.fe := rfl
@[simp] theorem stripeWr_cores (s : State) (a : Nat) (bs : List Byte) : (s.stripeWr a bs).cores = s.cores := rfl
@[simp] theorem stripeWr_rinks (s : State) (a : Nat) (bs : List Byte) : (s.stripeWr a bs).rinks = s.rinks := rfl
@[simp] theorem stripeWr_move (s : State) (a : Nat) (bs : List Byte) : (s.stripeWr a bs).move = s.move := rfl
@[simp] theorem stripeWr_jobs (s : State) (a : Nat) (bs : List Byte) : (s.stripeWr a bs).jobs = s.jobs := rfl
@[simp] theorem stripeWr_vrings (s : State) (a : Nat) (bs : List Byte) : (s.stripeWr a bs).vrings = s.vrings := rfl
@[simp] theorem stripeWr_tuzer (s : State) (a : Nat) (bs : List Byte) : (s.stripeWr a bs).tuzer = s.tuzer := rfl
@[simp] theorem stripeWr_keys (s : State) (a : Nat) (bs : List Byte) : (s.stripeWr a bs).keys = s.keys := rfl
@[simp] theorem stripeWr_sec (s : State) (a : Nat) (bs : List Byte) : (s.stripeWr a bs).sec = s.sec := rfl
@[simp] theorem stripeWr_store (s : State) (a : Nat) (bs : List Byte) : (s.stripeWr a bs).store = s.store := rfl
@[simp] theorem stripeWr_rdata (s : State) (a : Nat) (bs : List Byte) : (s.stripeWr a bs).rdata = s.rdata := rfl
@[simp] theorem stripeWr_rbytes (s : State) (a : Nat) (bs : List Byte) : (s.stripeWr a bs).rbytes = s.rbytes := rfl
@[simp] theorem stripeWr_freeCtr (s : State) (a : Nat) (bs : List Byte) : (s.stripeWr a bs).freeCtr = s.freeCtr := rfl

/-! ### spadWr -/

@[simp] theorem spadWr_pending (s : State) (r a : Nat) (bs : List Byte) : (s.spadWr r a bs).pending = s.pending := rfl
@[simp] theorem spadWr_regs (s : State) (r a : Nat) (bs : List Byte) : (s.spadWr r a bs).regs = s.regs := rfl
@[simp] theorem spadWr_woDone (s : State) (r a : Nat) (bs : List Byte) : (s.spadWr r a bs).woDone = s.woDone := rfl
@[simp] theorem spadWr_softBusy (s : State) (r a : Nat) (bs : List Byte) : (s.spadWr r a bs).softBusy = s.softBusy := rfl
@[simp] theorem spadWr_readyReached (s : State) (r a : Nat) (bs : List Byte) : (s.spadWr r a bs).readyReached = s.readyReached := rfl
@[simp] theorem spadWr_marks (s : State) (r a : Nat) (bs : List Byte) : (s.spadWr r a bs).marks = s.marks := rfl
@[simp] theorem spadWr_host (s : State) (r a : Nat) (bs : List Byte) : (s.spadWr r a bs).host = s.host := rfl
@[simp] theorem spadWr_gddr (s : State) (r a : Nat) (bs : List Byte) : (s.spadWr r a bs).gddr = s.gddr := rfl
@[simp] theorem spadWr_stripe (s : State) (r a : Nat) (bs : List Byte) : (s.spadWr r a bs).stripe = s.stripe := rfl
@[simp] theorem spadWr_time (s : State) (r a : Nat) (bs : List Byte) : (s.spadWr r a bs).time = s.time := rfl
@[simp] theorem spadWr_power (s : State) (r a : Nat) (bs : List Byte) : (s.spadWr r a bs).power = s.power := rfl
@[simp] theorem spadWr_wax (s : State) (r a : Nat) (bs : List Byte) : (s.spadWr r a bs).wax = s.wax := rfl
@[simp] theorem spadWr_domains (s : State) (r a : Nat) (bs : List Byte) : (s.spadWr r a bs).domains = s.domains := rfl
@[simp] theorem spadWr_link (s : State) (r a : Nat) (bs : List Byte) : (s.spadWr r a bs).link = s.link := rfl
@[simp] theorem spadWr_cnt (s : State) (r a : Nat) (bs : List Byte) : (s.spadWr r a bs).cnt = s.cnt := rfl
@[simp] theorem spadWr_fe (s : State) (r a : Nat) (bs : List Byte) : (s.spadWr r a bs).fe = s.fe := rfl
@[simp] theorem spadWr_cores (s : State) (r a : Nat) (bs : List Byte) : (s.spadWr r a bs).cores = s.cores := rfl
@[simp] theorem spadWr_rinks (s : State) (r a : Nat) (bs : List Byte) : (s.spadWr r a bs).rinks = s.rinks := rfl
@[simp] theorem spadWr_move (s : State) (r a : Nat) (bs : List Byte) : (s.spadWr r a bs).move = s.move := rfl
@[simp] theorem spadWr_jobs (s : State) (r a : Nat) (bs : List Byte) : (s.spadWr r a bs).jobs = s.jobs := rfl
@[simp] theorem spadWr_vrings (s : State) (r a : Nat) (bs : List Byte) : (s.spadWr r a bs).vrings = s.vrings := rfl
@[simp] theorem spadWr_tuzer (s : State) (r a : Nat) (bs : List Byte) : (s.spadWr r a bs).tuzer = s.tuzer := rfl
@[simp] theorem spadWr_keys (s : State) (r a : Nat) (bs : List Byte) : (s.spadWr r a bs).keys = s.keys := rfl
@[simp] theorem spadWr_sec (s : State) (r a : Nat) (bs : List Byte) : (s.spadWr r a bs).sec = s.sec := rfl
@[simp] theorem spadWr_store (s : State) (r a : Nat) (bs : List Byte) : (s.spadWr r a bs).store = s.store := rfl
@[simp] theorem spadWr_rdata (s : State) (r a : Nat) (bs : List Byte) : (s.spadWr r a bs).rdata = s.rdata := rfl
@[simp] theorem spadWr_rbytes (s : State) (r a : Nat) (bs : List Byte) : (s.spadWr r a bs).rbytes = s.rbytes := rfl
@[simp] theorem spadWr_freeCtr (s : State) (r a : Nat) (bs : List Byte) : (s.spadWr r a bs).freeCtr = s.freeCtr := rfl

/-! ### rateMark -/

@[simp] theorem rateMark_pending (s : State) (k : Nat) : (s.rateMark k).pending = s.pending := rfl
@[simp] theorem rateMark_regs (s : State) (k : Nat) : (s.rateMark k).regs = s.regs := rfl
@[simp] theorem rateMark_woDone (s : State) (k : Nat) : (s.rateMark k).woDone = s.woDone := rfl
@[simp] theorem rateMark_softBusy (s : State) (k : Nat) : (s.rateMark k).softBusy = s.softBusy := rfl
@[simp] theorem rateMark_readyReached (s : State) (k : Nat) : (s.rateMark k).readyReached = s.readyReached := rfl
@[simp] theorem rateMark_host (s : State) (k : Nat) : (s.rateMark k).host = s.host := rfl
@[simp] theorem rateMark_gddr (s : State) (k : Nat) : (s.rateMark k).gddr = s.gddr := rfl
@[simp] theorem rateMark_stripe (s : State) (k : Nat) : (s.rateMark k).stripe = s.stripe := rfl
@[simp] theorem rateMark_spad (s : State) (k : Nat) : (s.rateMark k).spad = s.spad := rfl
@[simp] theorem rateMark_time (s : State) (k : Nat) : (s.rateMark k).time = s.time := rfl
@[simp] theorem rateMark_power (s : State) (k : Nat) : (s.rateMark k).power = s.power := rfl
@[simp] theorem rateMark_wax (s : State) (k : Nat) : (s.rateMark k).wax = s.wax := rfl
@[simp] theorem rateMark_domains (s : State) (k : Nat) : (s.rateMark k).domains = s.domains := rfl
@[simp] theorem rateMark_link (s : State) (k : Nat) : (s.rateMark k).link = s.link := rfl
@[simp] theorem rateMark_cnt (s : State) (k : Nat) : (s.rateMark k).cnt = s.cnt := rfl
@[simp] theorem rateMark_fe (s : State) (k : Nat) : (s.rateMark k).fe = s.fe := rfl
@[simp] theorem rateMark_cores (s : State) (k : Nat) : (s.rateMark k).cores = s.cores := rfl
@[simp] theorem rateMark_rinks (s : State) (k : Nat) : (s.rateMark k).rinks = s.rinks := rfl
@[simp] theorem rateMark_move (s : State) (k : Nat) : (s.rateMark k).move = s.move := rfl
@[simp] theorem rateMark_jobs (s : State) (k : Nat) : (s.rateMark k).jobs = s.jobs := rfl
@[simp] theorem rateMark_vrings (s : State) (k : Nat) : (s.rateMark k).vrings = s.vrings := rfl
@[simp] theorem rateMark_tuzer (s : State) (k : Nat) : (s.rateMark k).tuzer = s.tuzer := rfl
@[simp] theorem rateMark_keys (s : State) (k : Nat) : (s.rateMark k).keys = s.keys := rfl
@[simp] theorem rateMark_sec (s : State) (k : Nat) : (s.rateMark k).sec = s.sec := rfl
@[simp] theorem rateMark_store (s : State) (k : Nat) : (s.rateMark k).store = s.store := rfl
@[simp] theorem rateMark_rdata (s : State) (k : Nat) : (s.rateMark k).rdata = s.rdata := rfl
@[simp] theorem rateMark_rbytes (s : State) (k : Nat) : (s.rateMark k).rbytes = s.rbytes := rfl
@[simp] theorem rateMark_freeCtr (s : State) (k : Nat) : (s.rateMark k).freeCtr = s.freeCtr := rfl



/-! ### The end of a command -/

@[simp] theorem done_eq (s : State) : s.done = .next (Safety.ended s) := rfl

theorem eng_run (s t : State) (h : s.halted = false) : s.eng t = .next (Safety.ended t) := by
  simp [State.eng, h]

theorem eng_halted (s t : State) (h : s.halted = true) : s.eng t = .next (Safety.ended s) := by
  simp [State.eng, h]

/-- An engine's own step always answers a next state. -/
theorem eng_next (s t : State) : ∃ u, s.eng t = .next u := by
  unfold State.eng; split <;> exact ⟨_, rfl⟩

/-! ### Register words -/

@[simp] theorem word_setWord_same (s : State) (k v : Nat) : (s.setWord k v).word k = v % 2 ^ 32 := by
  simp [State.word, State.setWord]

theorem word_setWord_ne (s : State) {k j : Nat} (v : Nat) (h : j ≠ k) : (s.setWord k v).word j = s.word j := by
  simp [State.word, State.setWord, tabGet_tabPut_ne _ _ _ h]

theorem word_setWord (s : State) (k j v : Nat) : (s.setWord k v).word j = if j = k then v % 2 ^ 32 else s.word j := by
  by_cases h : j = k
  · subst h; simp
  · simp [h, word_setWord_ne s v h]

theorem word_lt (s : State) (k : Nat) : s.word k < 2 ^ 32 := (tabGet regReset s.regs k).isLt

theorem word_congr {s t : State} (h : t.regs = s.regs) (k : Nat) : t.word k = s.word k := by
  simp [State.word, h]

theorem getF_congr {s t : State} (h : t.regs = s.regs) (p : Nat) (f : Fld) (i : Nat) : t.getF p f i = s.getF p f i := by
  simp [State.getF, word_congr h]

theorem word_setF_ne (s : State) (p : Nat) (f : Fld) (v i : Nat) {k : Nat} (h : k ≠ fldKey p f i) :
    (s.setF p f v i).word k = s.word k := word_setWord_ne s _ h

/-- A field reads as it was written, cut to its width. -/
theorem getF_setF_same (s : State) (p : Nat) (f : Fld) (v i : Nat) (h : f.lo ≤ f.hi) (h32 : f.hi < 32) :
    (s.setF p f v i).getF p f i = v % 2 ^ (f.hi + 1 - f.lo) := by
  simp only [State.getF, State.setF, word_setWord_same]
  rw [bits_mod_word _ _ _ h32, bits_setBits_same _ _ _ _ h]

/-- A field of another register, or of the same register beside the one written, reads as before. -/
theorem getF_setF_ne (s : State) (p : Nat) (f : Fld) (v i : Nat) (q : Nat) (g : Fld) (j : Nat)
    (h : fldKey q g j ≠ fldKey p f i ∨ (f.lo ≤ f.hi ∧ g.hi < 32 ∧ (f.hi < g.lo ∨ g.hi < f.lo))) :
    (s.setF p f v i).getF q g j = s.getF q g j := by
  by_cases hk : fldKey q g j = fldKey p f i
  · obtain h | ⟨h1, h2, h3⟩ := h
    · exact absurd hk h
    · simp only [State.getF, State.setF, hk, word_setWord_same]
      rw [bits_mod_word _ _ _ h2, bits_setBits_disjoint _ _ _ _ _ _ h1 h3]
  · simp only [State.getF, State.setF]
    rw [word_setWord_ne _ _ hk]

/-! ### The rest of the state -/

@[simp] theorem rest_setWord (s : State) (k v : Nat) : Safety.rest (s.setWord k v) = Safety.rest s := rfl
@[simp] theorem rest_setF (s : State) (p : Nat) (f : Fld) (v i : Nat) : Safety.rest (s.setF p f v i) = Safety.rest s := rfl
@[simp] theorem rest_satF (s : State) (p : Nat) (f : Fld) (n i : Nat) : Safety.rest (s.satF p f n i) = Safety.rest s := rfl
@[simp] theorem rest_wrapF (s : State) (p : Nat) (f : Fld) (n i : Nat) : Safety.rest (s.wrapF p f n i) = Safety.rest s := rfl
@[simp] theorem rest_set64 (s : State) (p : Nat) (f g : Fld) (v i : Nat) : Safety.rest (s.set64 p f g v i) = Safety.rest s := rfl

theorem rest_raiseBit (s : State) (p b : Nat) : Safety.rest (s.raiseBit p b) = Safety.rest s := by
  unfold State.raiseBit; split <;> rfl

theorem rest_counterWrapped (s : State) (p i : Nat) : Safety.rest (s.counterWrapped p i) = Safety.rest s := by
  unfold State.counterWrapped
  dsimp only
  split
  · have h := rest_raiseBit (s.setWord (p + 0xFA0) (setBit (s.word (p + 0xFA0)) i)) p 29
    simp only [rest_setWord] at h
    split
    · split
      · exact h
      · rw [← h]; rfl
    · exact h
  · rfl

theorem rest_countOne (s : State) (p n i : Nat) : Safety.rest (s.countOne p n i) = Safety.rest s := by
  unfold State.countOne State.setCount48
  dsimp only
  split
  · rw [rest_counterWrapped]; rfl
  · rfl

/-- A fold of updates that leave a part of the state leaves that part. -/
theorem foldl_keeps {σ β γ : Type} (f : σ → β → σ) (p : σ → γ) (h : ∀ s b, p (f s b) = p s) (l : List β) (s : σ) :
    p (l.foldl f s) = p s := by
  induction l generalizing s with
  | nil => rfl
  | cons b l ih => rw [List.foldl_cons, ih, h]

theorem rest_countEvt (s : State) (p e n : Nat) : Safety.rest (s.countEvt p e n) = Safety.rest s := by
  unfold State.countEvt
  split
  · rfl
  · exact foldl_keeps _ Safety.rest (fun s i => by split <;> simp [rest_countOne]) _ s

/-- A page event leaves everything but register words as it is. -/
@[simp] theorem rest_raise (s : State) (p b : Nat) : Safety.rest (s.raise p b) = Safety.rest s := by
  unfold State.raise
  dsimp only
  split
  · split
    · rw [rest_countEvt, rest_raiseBit]
    · exact rest_raiseBit s p b
  · exact rest_raiseBit s p b

@[simp] theorem rest_raiseIf (s : State) (c : Bool) (p b : Nat) : Safety.rest (s.raiseIf c p b) = Safety.rest s := by
  unfold State.raiseIf; split
  · exact rest_raise s p b
  · rfl

@[simp] theorem rest_pgErr (s : State) (a : Agent) (p o c : Nat) (w : Bool) : Safety.rest (s.pgErr a p o c w) = Safety.rest s := by
  simp [State.pgErr]

@[simp] theorem rest_badAccess (s : State) (a : Agent) (b o : Nat) (w : Bool) : Safety.rest (s.badAccess a b o w) = Safety.rest s := rfl

theorem rest_applyFields (s : State) (a : Agent) (p o : Nat) (r : RegRow) (v : Nat) :
    Safety.rest (s.applyFields a p o r v) = Safety.rest s := by
  unfold State.applyFields
  dsimp only
  split <;> split <;> split <;> first | rfl | (simp only [rest_pgErr]; rfl)

/-- A plain register write leaves everything but register words as it is. -/
@[simp] theorem rest_plainWrite (a : Agent) (p o v : Nat) (s : State) : Safety.rest (State.plainWrite a p o v s) = Safety.rest s := by
  unfold State.plainWrite
  split
  · rfl
  · split
    · rfl
    · exact rest_applyFields ..

@[simp] theorem rest_sendMsi (s : State) (v : Nat) : Safety.rest (s.sendMsi v) = Safety.rest s := by
  unfold State.sendMsi; split <;> rfl

@[simp] theorem rest_resend (s : State) (p : Nat) : Safety.rest (s.resend p) = Safety.rest s := by
  unfold State.resend
  split
  · split
    · exact rest_sendMsi ..
    · rfl
  · rfl

/-- The messages of vectors that rise leave the register words and the rest. -/
theorem settle_regs (s : State) : s.settle.regs = s.regs :=
  foldl_keeps _ State.regs (fun s v => by
    split
    · unfold State.sendMsi; split <;> rfl
    · rfl) (List.range 74) s

@[simp] theorem rest_settle (s : State) : Safety.rest s.settle = Safety.rest s :=
  foldl_keeps _ Safety.rest (fun s v => by split <;> simp) (List.range 74) s

@[simp] theorem rest_watch (s : State) : Safety.rest s.watch = Safety.rest s := by
  unfold State.watch
  split
  · dsimp only; split <;> rfl
  · rfl

@[simp] theorem rest_ended (s : State) : Safety.rest (Safety.ended s) = Safety.rest s := by
  simp [Safety.ended]

@[simp] theorem word_settle (s : State) (k : Nat) : s.settle.word k = s.word k := word_congr (settle_regs s) k

theorem word_watch (s : State) {k : Nat} (h : k ≠ Safety.psStat) : s.watch.word k = s.word k := by
  unfold State.watch
  split
  · dsimp only; split
    · rw [word_setF_ne _ _ _ _ _ (by simpa [fldKey] using h)]; rfl
    · rfl
  · rfl

/-- The end of a command leaves every register word, PW_PS_STAT apart. -/
theorem word_ended (s : State) {k : Nat} (h : k ≠ Safety.psStat) : (Safety.ended s).word k = s.word k := by
  simp [Safety.ended, word_watch s h]

theorem getF_ended (s : State) (p : Nat) (f : Fld) (i : Nat) (h : fldKey p f i ≠ Safety.psStat) :
    (Safety.ended s).getF p f i = s.getF p f i := by
  simp [State.getF, word_ended s h]

/-! ### What the rest holds -/

theorem pending_of_rest {s t : State} (h : Safety.rest t = Safety.rest s) : t.pending = s.pending := by
  have := congrArg State.pending h; exact this
theorem softBusy_of_rest {s t : State} (h : Safety.rest t = Safety.rest s) : t.softBusy = s.softBusy := by
  have := congrArg State.softBusy h; exact this
theorem readyReached_of_rest {s t : State} (h : Safety.rest t = Safety.rest s) : t.readyReached = s.readyReached := by
  have := congrArg State.readyReached h; exact this
theorem marks_of_rest {s t : State} (h : Safety.rest t = Safety.rest s) : t.marks = s.marks := by
  have := congrArg State.marks h; exact this
theorem host_of_rest {s t : State} (h : Safety.rest t = Safety.rest s) : t.host = s.host := by
  have := congrArg State.host h; exact this
theorem gddr_of_rest {s t : State} (h : Safety.rest t = Safety.rest s) : t.gddr = s.gddr := by
  have := congrArg State.gddr h; exact this
theorem stripe_of_rest {s t : State} (h : Safety.rest t = Safety.rest s) : t.stripe = s.stripe := by
  have := congrArg State.stripe h; exact this
theorem spad_of_rest {s t : State} (h : Safety.rest t = Safety.rest s) : t.spad = s.spad := by
  have := congrArg State.spad h; exact this
theorem time_of_rest {s t : State} (h : Safety.rest t = Safety.rest s) : t.time = s.time := by
  have := congrArg State.time h; exact this
theorem wax_of_rest {s t : State} (h : Safety.rest t = Safety.rest s) : t.wax = s.wax := by
  have := congrArg State.wax h; exact this
theorem domains_of_rest {s t : State} (h : Safety.rest t = Safety.rest s) : t.domains = s.domains := by
  have := congrArg State.domains h; exact this
theorem fe_of_rest {s t : State} (h : Safety.rest t = Safety.rest s) : t.fe = s.fe := by
  have := congrArg State.fe h; exact this
theorem cores_of_rest {s t : State} (h : Safety.rest t = Safety.rest s) : t.cores = s.cores := by
  have := congrArg State.cores h; exact this
theorem rinks_of_rest {s t : State} (h : Safety.rest t = Safety.rest s) : t.rinks = s.rinks := by
  have := congrArg State.rinks h; exact this
theorem move_of_rest {s t : State} (h : Safety.rest t = Safety.rest s) : t.move = s.move := by
  have := congrArg State.move h; exact this
theorem jobs_of_rest {s t : State} (h : Safety.rest t = Safety.rest s) : t.jobs = s.jobs := by
  have := congrArg State.jobs h; exact this
theorem vrings_of_rest {s t : State} (h : Safety.rest t = Safety.rest s) : t.vrings = s.vrings := by
  have := congrArg State.vrings h; exact this
theorem tuzer_of_rest {s t : State} (h : Safety.rest t = Safety.rest s) : t.tuzer = s.tuzer := by
  have := congrArg State.tuzer h; exact this
theorem keys_of_rest {s t : State} (h : Safety.rest t = Safety.rest s) : t.keys = s.keys := by
  have := congrArg State.keys h; exact this
theorem sec_of_rest {s t : State} (h : Safety.rest t = Safety.rest s) : t.sec = s.sec := by
  have := congrArg State.sec h; exact this
theorem store_of_rest {s t : State} (h : Safety.rest t = Safety.rest s) : t.store = s.store := by
  have := congrArg State.store h; exact this
theorem rdata_of_rest {s t : State} (h : Safety.rest t = Safety.rest s) : t.rdata = s.rdata := by
  have := congrArg State.rdata h; exact this
theorem rbytes_of_rest {s t : State} (h : Safety.rest t = Safety.rest s) : t.rbytes = s.rbytes := by
  have := congrArg State.rbytes h; exact this
theorem freeCtr_of_rest {s t : State} (h : Safety.rest t = Safety.rest s) : t.freeCtr = s.freeCtr := by
  have := congrArg State.freeCtr h; exact this
theorem cnt_heldLo_of_rest {s t : State} (h : Safety.rest t = Safety.rest s) : t.cnt.heldLo = s.cnt.heldLo := by
  have := congrArg (fun u => u.cnt.heldLo) h; exact this
theorem cnt_latchHi_of_rest {s t : State} (h : Safety.rest t = Safety.rest s) : t.cnt.latchHi = s.cnt.latchHi := by
  have := congrArg (fun u => u.cnt.latchHi) h; exact this
theorem cnt_collect_of_rest {s t : State} (h : Safety.rest t = Safety.rest s) : t.cnt.collect = s.cnt.collect := by
  have := congrArg (fun u => u.cnt.collect) h; exact this
theorem cnt_bwBytes_of_rest {s t : State} (h : Safety.rest t = Safety.rest s) : t.cnt.bwBytes = s.cnt.bwBytes := by
  have := congrArg (fun u => u.cnt.bwBytes) h; exact this
theorem cnt_bwStart_of_rest {s t : State} (h : Safety.rest t = Safety.rest s) : t.cnt.bwStart = s.cnt.bwStart := by
  have := congrArg (fun u => u.cnt.bwStart) h; exact this
theorem power_deepest_of_rest {s t : State} (h : Safety.rest t = Safety.rest s) : t.power.deepest = s.power.deepest := by
  have := congrArg (fun u => u.power.deepest) h; exact this
theorem power_coolCount_of_rest {s t : State} (h : Safety.rest t = Safety.rest s) : t.power.coolCount = s.power.coolCount := by
  have := congrArg (fun u => u.power.coolCount) h; exact this
theorem power_trip_of_rest {s t : State} (h : Safety.rest t = Safety.rest s) : t.power.trip = s.power.trip := by
  have := congrArg (fun u => u.power.trip) h; exact this
theorem power_supplyEn_of_rest {s t : State} (h : Safety.rest t = Safety.rest s) : t.power.supplyEn = s.power.supplyEn := by
  have := congrArg (fun u => u.power.supplyEn) h; exact this
theorem power_pwrOk_of_rest {s t : State} (h : Safety.rest t = Safety.rest s) : t.power.pwrOk = s.power.pwrOk := by
  have := congrArg (fun u => u.power.pwrOk) h; exact this
theorem power_wakeAt_of_rest {s t : State} (h : Safety.rest t = Safety.rest s) : t.power.wakeAt = s.power.wakeAt := by
  have := congrArg (fun u => u.power.wakeAt) h; exact this
theorem power_heldReqs_of_rest {s t : State} (h : Safety.rest t = Safety.rest s) : t.power.heldReqs = s.power.heldReqs := by
  have := congrArg (fun u => u.power.heldReqs) h; exact this
theorem power_scrubUntil_of_rest {s t : State} (h : Safety.rest t = Safety.rest s) : t.power.scrubUntil = s.power.scrubUntil := by
  have := congrArg (fun u => u.power.scrubUntil) h; exact this
theorem power_oscTrim_of_rest {s t : State} (h : Safety.rest t = Safety.rest s) : t.power.oscTrim = s.power.oscTrim := by
  have := congrArg (fun u => u.power.oscTrim) h; exact this
theorem link_up_of_rest {s t : State} (h : Safety.rest t = Safety.rest s) : t.link.up = s.link.up := by
  have := congrArg (fun u => u.link.up) h; exact this
theorem link_d3hot_of_rest {s t : State} (h : Safety.rest t = Safety.rest s) : t.link.d3hot = s.link.d3hot := by
  have := congrArg (fun u => u.link.d3hot) h; exact this
theorem link_bar2Log2_of_rest {s t : State} (h : Safety.rest t = Safety.rest s) : t.link.bar2Log2 = s.link.bar2Log2 := by
  have := congrArg (fun u => u.link.bar2Log2) h; exact this
theorem link_aerPoisoned_of_rest {s t : State} (h : Safety.rest t = Safety.rest s) : t.link.aerPoisoned = s.link.aerPoisoned := by
  have := congrArg (fun u => u.link.aerPoisoned) h; exact this
theorem link_heldReset_of_rest {s t : State} (h : Safety.rest t = Safety.rest s) : t.link.heldReset = s.link.heldReset := by
  have := congrArg (fun u => u.link.heldReset) h; exact this
theorem link_held_of_rest {s t : State} (h : Safety.rest t = Safety.rest s) : t.link.held = s.link.held := by
  have := congrArg (fun u => u.link.held) h; exact this
theorem link_recNo_of_rest {s t : State} (h : Safety.rest t = Safety.rest s) : t.link.recNo = s.link.recNo := by
  have := congrArg (fun u => u.link.recNo) h; exact this

end Sys2Proof.Laws
end

