-- ==== Sys2Proof/Laws/Registers.lean ====
section
/-! SUPPORT. What the shared register operations do: an admitted write, events, access errors, the vectors' levels. -/

namespace Sys2Proof.Laws

open Sys2Proof Sys2Proof.Machine Sys2Proof.Machine.State

/-- An admitted write has its effect. -/
theorem guardedWrite_admitted (s : State) (a : Agent) (page off v : Nat) (effect : Nat → State → State)
    (h : Safety.Admitted s a page off) : s.guardedWrite a page off v effect = effect v s := by
  unfold Safety.Admitted at h
  unfold State.guardedWrite
  cases h1 : (a == .host && s.hostWaits) <;> cases h2 : s.answers page <;> simp [h1, h2] at h
  cases h3 : pageInfo page with
  | none => simp [h3] at h
  | some ki =>
    obtain ⟨k, i⟩ := ki
    simp only [h3] at h
    cases h4 : regRow k off with
    | none => simp [h4] at h
    | some r =>
      simp only [h4, Bool.and_eq_true, Bool.not_eq_true'] at h
      obtain ⟨⟨h5, h6⟩, h7, h8⟩ := h
      have h6' : (capWord page k off).isSome = false := by
        cases hc : capWord page k off <;> simp [hc] at h6 ⊢
      have hr : (s.resetBusy page && decide (0x40 ≤ off)) = false := by
        cases ho : decide (0x40 ≤ off) <;> cases hb : s.resetBusy page <;> simp_all
      have hk : (s.clkOff page && decide (0x40 ≤ off)) = false := by
        cases ho : decide (0x40 ≤ off) <;> cases hb : s.clkOff page <;> simp_all
      simp only [Bool.false_eq_true, if_false, Bool.not_true, hr, hk, h6', h4, h7, h8]

/-- A page that answers exists. -/
theorem answers_page {s : State} {page : Nat} (h : s.answers page = true) : ∃ k i, pageInfo page = some (k, i) := by
  unfold State.answers at h
  split at h
  · simp at h
  · next k i e => exact ⟨k, i, e⟩

/-- The page of an admitted write exists. -/
theorem admitted_page {s : State} {a : Agent} {page off : Nat} (h : Safety.Admitted s a page off) :
    ∃ k i, pageInfo page = some (k, i) := by
  unfold Safety.Admitted at h
  cases h3 : pageInfo page with
  | none => simp [h3] at h
  | some ki => exact ⟨ki.1, ki.2, rfl⟩

/-- Pages are 4 KiB apart. -/
theorem page_aligned {page : Nat} {ki : Kind × Nat} (h : pageInfo page = some ki) : page % 0x1000 = 0 := by
  unfold pageInfo at h
  by_contra hc
  simp [hc] at h

/-- An event word of a page is not PW_PS_STAT, nor is a header word. -/
theorem header_ne_psStat {page off : Nat} {ki : Kind × Nat} (h : pageInfo page = some ki) (ho : off < 0x40) :
    page + off ≠ Safety.psStat := by
  have := page_aligned h
  simp only [Safety.psStat, pwPage]
  omega

/-! ### Plain writes -/

/-- A write to a register without WO fields, of which no field refuses its encoding. -/
theorem plainWrite_word (a : Agent) (s : State) {page off v w : Nat} {k : Kind} {i : Nat} {r : RegRow}
    (hp : pageInfo page = some (k, i)) (hr : regRow k off = some r) (hwo : (r.fields.filter fun f => f.acc == .wo) = [])
    (hw : r.fields.foldl (applyField v) (s.word (page + off), false) = (w, false)) :
    State.plainWrite a page off v s = s.setWord (page + off) w := by
  unfold State.plainWrite
  simp only [hp, hr]
  unfold State.applyFields
  simp [hwo, hw]

/-- A vector's message leaves the register words. -/
@[simp] theorem word_sendMsi (s : State) (v k : Nat) : (s.sendMsi v).word k = s.word k := by
  unfold State.sendMsi; split <;> rfl

@[simp] theorem word_resend (s : State) (p k : Nat) : (s.resend p).word k = s.word k := by
  unfold State.resend
  split
  · split
    · exact word_sendMsi ..
    · rfl
  · rfl

/-! ### Folds over numbered parts -/

theorem foldl_keeps_mem {σ β γ : Type} (f : σ → β → σ) (p : σ → γ) (l : List β) (h : ∀ s, ∀ b ∈ l, p (f s b) = p s) (s : σ) :
    p (l.foldl f s) = p s := by
  induction l generalizing s with
  | nil => rfl
  | cons b l ih =>
    rw [List.foldl_cons, ih (fun s b' hb => h s b' (List.mem_cons_of_mem _ hb)), h s b (List.mem_cons_self ..)]

/-! ### Events -/

theorem word_raiseBit_ne (s : State) (p b : Nat) {k : Nat} (h1 : k ≠ p + 0x14) (h2 : k ≠ p + 0x10) :
    (s.raiseBit p b).word k = s.word k := by
  unfold State.raiseBit
  dsimp only
  split
  · unfold State.wrapF
    rw [word_setF_ne _ _ _ _ _ (by simpa [fldKey] using h2), word_setWord_ne _ _ h1]
  · rw [word_setWord_ne _ _ h1]

theorem word_raiseBit_stat (s : State) (p b : Nat) (hb : b < 32) : (s.raiseBit p b).word (p + 0x14) = setBit (s.word (p + 0x14)) b := by
  have e : setBit (s.word (p + 0x14)) b % 2 ^ 32 = setBit (s.word (p + 0x14)) b :=
    Nat.mod_eq_of_lt (setBit_lt (word_lt _ _) hb)
  unfold State.raiseBit
  dsimp only
  split
  · unfold State.wrapF
    rw [word_setF_ne _ _ _ _ _ (by simp [fldKey]), word_setWord_same, e]
  · rw [word_setWord_same, e]

theorem word_counterWrapped_ne (s : State) (p i : Nat) {k : Nat} (h1 : k ≠ p + 0x14) (h2 : k ≠ p + 0x10) (h3 : k ≠ p + 0xFA0) :
    (s.counterWrapped p i).word k = s.word k := by
  unfold State.counterWrapped
  dsimp only
  split
  · have h : ((s.setWord (p + 0xFA0) (setBit (s.word (p + 0xFA0)) i)).raiseBit p 29).word k = s.word k := by
      rw [word_raiseBit_ne _ _ _ h1 h2, word_setWord_ne _ _ h3]
    split
    · split
      · exact h
      · exact h
    · exact h
  · exact word_setWord_ne _ _ h3

theorem word_countOne_ne (s : State) (p n : Nat) {i k : Nat} (hi : i < 8) (h : ¬ Safety.eventWords p k) :
    (s.countOne p n i).word k = s.word k := by
  have h1 : k ≠ p + 0x14 := fun e => h (.inr (.inl e))
  have h2 : k ≠ p + 0x10 := fun e => h (.inl e)
  have h3 : ¬ (p + 0xF20 ≤ k ∧ k < p + 0xFA4) := fun e => h (.inr (.inr e))
  have hs : ∀ v, (s.setCount48 p i v).word k = s.word k := by
    intro v
    unfold State.setCount48
    rw [word_setF_ne _ _ _ _ _ (by simp [fldKey]; omega), word_setF_ne _ _ _ _ _ (by simp [fldKey]; omega)]
  unfold State.countOne
  dsimp only
  split
  · rw [word_counterWrapped_ne _ _ _ h1 h2 (by omega), hs]
  · exact hs _

/-- A counter event leaves every word but those of the page's events. -/
theorem word_countEvt_ne (s : State) (p e n : Nat) {k : Nat} (h : ¬ Safety.eventWords p k) :
    (s.countEvt p e n).word k = s.word k := by
  unfold State.countEvt
  split
  · rfl
  · refine foldl_keeps_mem _ (fun s => State.word s k) _ (fun s i hi => ?_) s
    have hi : i < 8 := List.mem_range.mp hi
    split
    · exact word_countOne_ne s p n hi h
    · rfl

/-- A page event leaves every word but those of the page's events. -/
theorem word_raise_ne (s : State) (p b : Nat) {k : Nat} (h : ¬ Safety.eventWords p k) : (s.raise p b).word k = s.word k := by
  have hb : (s.raiseBit p b).word k = s.word k :=
    word_raiseBit_ne s p b (fun e => h (.inr (.inl e))) (fun e => h (.inl e))
  unfold State.raise
  dsimp only
  split
  · split
    · rw [word_countEvt_ne _ _ _ _ h, hb]
    · exact hb
  · exact hb

theorem bit_counterWrapped (s : State) (p i b : Nat) (h : bit (s.word (p + 0x14)) b = true) :
    bit ((s.counterWrapped p i).word (p + 0x14)) b = true := by
  have hset : ∀ u : State, bit (u.word (p + 0x14)) b = true → bit ((u.raiseBit p 29).word (p + 0x14)) b = true := by
    intro u hu
    rw [word_raiseBit_stat _ _ _ (by omega)]
    rw [bit_eq_testBit] at *
    rw [testBit_setBit, hu]; simp
  have h0 : bit ((s.setWord (p + 0xFA0) (setBit (s.word (p + 0xFA0)) i)).word (p + 0x14)) b = true := by
    rw [word_setWord_ne _ _ (by omega)]; exact h
  unfold State.counterWrapped
  dsimp only
  split
  · have h1 := hset _ h0
    split
    · split <;> exact h1
    · exact h1
  · exact h0

theorem bit_countEvt (s : State) (p e n b : Nat) (h : bit (s.word (p + 0x14)) b = true) :
    bit ((s.countEvt p e n).word (p + 0x14)) b = true := by
  unfold State.countEvt
  split
  · exact h
  · have key : ∀ (l : List Nat), (∀ i ∈ l, i < 8) → ∀ s : State, bit (s.word (p + 0x14)) b = true →
        bit ((l.foldl (fun s i =>
          if s.flag p PC_SELi_en i && s.getF p PC_SELi_event i == e && e != 0 then s.countOne p n i else s) s).word (p + 0x14)) b
          = true := by
      intro l
      induction l with
      | nil => intro _ s h; exact h
      | cons i l ih =>
        intro hl s h
        rw [List.foldl_cons]
        refine ih (fun j hj => hl j (List.mem_cons_of_mem _ hj)) _ ?_
        split
        · unfold State.countOne State.setCount48
          dsimp only
          have hi : i < 8 := hl i (List.mem_cons_self ..)
          have h2 : ∀ v w, bit (((s.setF p PC_CNTi_LO_cnt_lo v i).setF p PC_CNTi_HI_cnt_hi w i).word (p + 0x14)) b = true := by
            intro v w
            rw [word_setF_ne _ _ _ _ _ (by simp [fldKey]; omega), word_setF_ne _ _ _ _ _ (by simp [fldKey]; omega)]
            exact h
          split
          · exact bit_counterWrapped _ _ _ _ (h2 _ _)
          · exact h2 _ _
        · exact h
    exact key _ (fun i hi => List.mem_range.mp hi) s h

/-- A page event sets its bit of PG_IRQ_STAT. -/
theorem bit_raise (s : State) (p b : Nat) (hb : b < 32) : bit ((s.raise p b).word (p + 0x14)) b = true := by
  have h : bit ((s.raiseBit p b).word (p + 0x14)) b = true := by
    rw [word_raiseBit_stat _ _ _ hb]; simp
  unfold State.raise
  dsimp only
  split
  · split
    · exact bit_countEvt _ _ _ _ _ h
    · exact h
  · exact h

/-! ### Access errors -/

/-- An access error leaves every word but PG_ERR_CNT, PG_ERR_ADDR and those of the page's events. -/
theorem word_pgErr_ne (s : State) (a : Agent) (p o c : Nat) (w : Bool) {k : Nat} (h : ¬ Safety.errorWords p k) :
    (s.pgErr a p o c w).word k = s.word k := by
  have h1 : k ≠ p + 0x20 := fun e => h (.inl e)
  have h2 : k ≠ p + 0x24 := fun e => h (.inr (.inl e))
  have h3 : ¬ Safety.eventWords p k := fun e => h (.inr (.inr e))
  unfold State.pgErr State.satF
  dsimp only
  rw [word_raise_ne _ _ _ h3, word_setWord_ne _ _ h2, word_setF_ne _ _ _ _ _ (by simpa [fldKey] using h1),
    word_setF_ne _ _ _ _ _ (by simpa [fldKey] using h1)]

/-! ### The vectors' levels -/

theorem domLive_congr {s t : State} (h : t.regs = s.regs) (p : Nat) : t.domLive p = s.domLive p := by
  unfold State.domLive State.domState
  split
  · rw [getF_congr h]
  · rfl

theorem asserts_congr {s t : State} (h : t.regs = s.regs) (p : Nat) : t.asserts p = s.asserts p := by
  unfold State.asserts
  rw [word_congr h, word_congr h, domLive_congr h]

theorem pageVector_congr {s t : State} (h : t.regs = s.regs) (p : Nat) : t.pageVector p = s.pageVector p := by
  unfold State.pageVector
  simp only [getF_congr h]

/-- The levels depend on the register words alone. -/
theorem levels_congr {s t : State} (h : t.regs = s.regs) : t.levels = s.levels := by
  simp only [State.levels, asserts_congr h, pageVector_congr h, h]

/-- Every command ends with the levels that the pages assert. -/
theorem settled_ended (s : State) : Safety.Settled (Safety.ended s) := by
  have h : (Safety.ended s).levels = s.watch.levels := levels_congr (settle_regs s.watch)
  unfold Safety.Settled
  rw [h]
  rfl

end Sys2Proof.Laws
end

