-- ==== Sys2Proof/Laws/Commands.lean ====
section
/-! SUPPORT. What each command answers, in one equation: a command of an agent or from outside ends the state that its operation makes, and one
of the device's own goes through `eng`, which does nothing on a halted device. -/

namespace Sys2Proof.Laws

open Sys2Proof Sys2Proof.Machine Sys2Proof.Machine.State

theorem exec_deviceReset (lowNs : Nat) (s : State) :
    exec (.deviceReset lowNs) s =
      .next (Safety.ended (s.deviceReset lowNs)) := rfl
theorem exec_bootImagesChecked (s : State) :
    exec .bootImagesChecked s =
      .next (Safety.ended (s.bootChecked)) := rfl
theorem exec_bringUpReady (s : State) :
    exec .bringUpReady s =
      s.eng s.bringUpReady := rfl
theorem exec_svnFloorRaise (s : State) :
    exec .svnFloorRaise s =
      s.eng s.svnRaise := rfl
theorem exec_softReset (a : Agent) (page : Nat) (v : Word) (s : State) :
    exec (.softReset a page v) s =
      .next (Safety.ended (s.guardedWrite a page 0xC (setBit v.toNat 1) (State.pgCtrlWrite a page))) := rfl
theorem exec_pgIrqStatClear (a : Agent) (page : Nat) (v hwSet : Word) (s : State) :
    exec (.pgIrqStatClear a page v hwSet) s =
      .next (Safety.ended (s.guardedWrite a page 0x14 v.toNat (State.irqStatWrite a page hwSet.toNat))) := rfl
theorem exec_pgIrqEnWrite (a : Agent) (page : Nat) (v : Word) (s : State) :
    exec (.pgIrqEnWrite a page v) s =
      .next (Safety.ended (s.guardedWrite a page 0x18 v.toNat (State.irqEnWrite a page))) := rfl
theorem exec_pgIrqForceWrite (a : Agent) (page : Nat) (v : Word) (s : State) :
    exec (.pgIrqForceWrite a page v) s =
      .next (Safety.ended (s.guardedWrite a page 0x1C v.toNat (State.irqForceWrite page))) := rfl
theorem exec_pgErrCntClear (a : Agent) (page : Nat) (v : Word) (cause : BitVec 8) (off : BitVec 12) (s : State) :
    exec (.pgErrCntClear a page v cause off) s =
      .next (Safety.ended (s.guardedWrite a page 0x20 (setBit v.toNat 31) fun v s =>
      let s1 := State.errCntWrite page v s
      if 1 ≤ cause.toNat ∧ cause.toNat ≤ 8 then
      s1.pgErr (if a == .host then .puppeteer else .host) page off.toNat cause.toNat true else s1)) := rfl
theorem exec_pgLockWrite (a : Agent) (page : Nat) (v : Word) (s : State) :
    exec (.pgLockWrite a page v) s =
      .next (Safety.ended (s.guardedWrite a page 0x28 v.toNat (State.lockWrite a page))) := rfl
theorem exec_msixUnmask (vec : Fin 128) (s : State) :
    exec (.msixUnmask vec) s =
      .next (Safety.ended (s.writeAny .host .bar4 (msixTable + 16 * vec + 12) 4 0)) := rfl
theorem exec_streamEnable (a : Agent) (k : Fin 32) (v : Word) (s : State) :
    exec (.streamEnable a k v) s =
      .next (Safety.ended (s.guardedWrite a (feStrm k) 0xC (setBit v.toNat 0) (State.pgCtrlWrite a (feStrm k)))) := rfl
theorem exec_streamDisable (a : Agent) (k : Fin 32) (v : Word) (s : State) :
    exec (.streamDisable a k v) s =
      .next (Safety.ended (s.guardedWrite a (feStrm k) 0xC (clrBit v.toNat 0) (State.pgCtrlWrite a (feStrm k)))) := rfl
theorem exec_longPacket (p : Fin 8) (vc : Fin 16) (dt : BitVec 6) (payload : List Byte) (hdrBad crcBad : Bool) (fullAt : Option Nat) (s : State) :
    exec (.longPacket p vc dt payload hdrBad crcBad fullAt) s =
      .next (Safety.ended (s.longPacket p vc dt.toNat payload hdrBad crcBad fullAt)) := rfl
theorem exec_lineStart (p : Fin 8) (vc : Fin 16) (num : BitVec 16) (hdrBad : Bool) (s : State) :
    exec (.lineStart p vc num hdrBad) s =
      .next (Safety.ended (s.lineStart p vc num.toNat hdrBad)) := rfl
theorem exec_lineEnd (p : Fin 8) (hdrBad : Bool) (s : State) :
    exec (.lineEnd p hdrBad) s =
      .next (Safety.ended (s.lineEnd p hdrBad)) := rfl
theorem exec_frameStart (p : Fin 8) (vc : Fin 16) (hdrBad : Bool) (s : State) :
    exec (.frameStart p vc hdrBad) s =
      .next (Safety.ended (s.frameStart p vc hdrBad)) := rfl
theorem exec_frameEnd (p : Fin 8) (vc : Fin 16) (hdrBad : Bool) (s : State) :
    exec (.frameEnd p vc hdrBad) s =
      .next (Safety.ended (s.frameEnd p vc hdrBad)) := rfl
theorem exec_dphySync (p : Fin 8) (lane : Fin 4) (s : State) :
    exec (.dphySync p lane) s =
      .next (Safety.ended (s.dphySync p lane)) := rfl
theorem exec_closeDeadline (k : Fin 32) (s : State) :
    exec (.closeDeadline k) s =
      s.eng (s.closeDeadline k) := rfl
theorem exec_stripeRelease (j : Fin 4) (k : Fin 32) (seq : Word) (s : State) :
    exec (.stripeRelease j k seq) s =
      s.eng (s.stripeRelease j k seq.toNat) := rfl
theorem exec_tableLoad (a : Agent) (v : Word) (s : State) :
    exec (.tableLoad a v) s =
      .next (Safety.ended (s.guardedWrite a feCommonPage 0x48 (setBit v.toNat 31) (State.tableLoadWrite a))) := rfl
theorem exec_tableLoadComplete (badUnit : Option Nat) (s : State) :
    exec (.tableLoadComplete badUnit) s =
      s.eng (s.tableLoadComplete badUnit) := rfl
theorem exec_seqRun (a : Agent) (k : Fin 128) (v : Word) (s : State) :
    exec (.seqRun a k v) s =
      .next (Safety.ended (s.guardedWrite a (cr k) 0x40 (setBit v.toNat 0) (State.seqCtrlWrite a k))) := rfl
theorem exec_seqStep (a : Agent) (k : Fin 128) (v : Word) (s : State) :
    exec (.seqStep a k v) s =
      .next (Safety.ended (s.guardedWrite a (cr k) 0x40 (setBit v.toNat 1) (State.seqCtrlWrite a k))) := rfl
theorem exec_clrCnt (a : Agent) (k : Fin 128) (v : Word) (s : State) :
    exec (.clrCnt a k v) s =
      .next (Safety.ended (s.guardedWrite a (cr k) 0x40 (setBit v.toNat 2) (State.seqCtrlWrite a k))) := rfl
theorem exec_crDataWrite (a : Agent) (k : Fin 128) (v : Word) (s : State) :
    exec (.crDataWrite a k v) s =
      .next (Safety.ended (s.guardedWrite a (cr k) 0x7C v.toNat (State.crDataWrite a k))) := rfl
theorem exec_resInject (a : Agent) (k : Fin 128) (v : Word) (s : State) :
    exec (.resInject a k v) s =
      .next (Safety.ended (s.guardedWrite a (cr k) 0x70 (setBit v.toNat 31) (State.resInjectWrite a k))) := rfl
theorem exec_nop (k : Fin 128) (s : State) :
    exec (.nop k) s =
      s.eng (s.seqIssue k 0) := rfl
theorem exec_op (k : Fin 128) (s : State) :
    exec (.op k) s =
      s.eng (s.seqIssue k 1) := rfl
theorem exec_sem (k : Fin 128) (s : State) :
    exec (.sem k) s =
      s.eng (s.seqIssue k 2) := rfl
theorem exec_fence (k : Fin 128) (s : State) :
    exec (.fence k) s =
      s.eng (s.seqIssue k 3) := rfl
theorem exec_loop (k : Fin 128) (s : State) :
    exec (.loop k) s =
      s.eng (s.seqIssue k 4) := rfl
theorem exec_cellEnd (k : Fin 128) (s : State) :
    exec (.cellEnd k) s =
      s.eng (s.seqIssue k 5) := rfl
theorem exec_halt (k : Fin 128) (s : State) :
    exec (.halt k) s =
      s.eng (s.seqIssue k 6) := rfl
theorem exec_t0TileIssue (k : Fin 128) (s : State) :
    exec (.t0TileIssue k) s =
      s.eng (s.t0Issue k) := rfl
theorem exec_t0TileComplete (k : Fin 128) (flips : List (Fin 32 × Fin 48)) (s : State) :
    exec (.t0TileComplete k flips) s =
      s.eng (s.t0Complete k flips) := rfl
theorem exec_accTileDrain (k : Fin 128) (s : State) :
    exec (.accTileDrain k) s =
      s.eng (s.accDrain k) := rfl
theorem exec_opComplete (k : Fin 128) (s : State) :
    exec (.opComplete k) s =
      s.eng (s.opComplete k) := rfl
theorem exec_groupLoaded (n : Fin 16) (s : State) :
    exec (.groupLoaded n) s =
      s.eng (s.groupLoaded n) := rfl
theorem exec_rinkDrainDone (n : Fin 16) (s : State) :
    exec (.rinkDrainDone n) s =
      s.eng (s.drainDone n) := rfl
theorem exec_inputCopy (n : Fin 16) (s : State) :
    exec (.inputCopy n) s =
      s.eng (s.inputCopy n) := rfl
theorem exec_carryMove (n : Fin 16) (s : State) :
    exec (.carryMove n) s =
      s.eng (s.carryMove n) := rfl
theorem exec_haloSend (n : Fin 16) (s : State) :
    exec (.haloSend n) s =
      s.eng (s.haloSend n) := rfl
theorem exec_haloArrival (n : Fin 16) (s : State) :
    exec (.haloArrival n) s =
      s.eng (s.haloArrival n) := rfl
theorem exec_haloCreditReturn (n : Fin 16) (entry : Fin 8) (right : Bool) (s : State) :
    exec (.haloCreditReturn n entry right) s =
      s.eng (s.haloCreditReturn n entry right) := rfl
theorem exec_haloTimeout (n : Fin 16) (s : State) :
    exec (.haloTimeout n) s =
      s.eng (s.haloTimeout n) := rfl
theorem exec_cellRelease (j : Fin 4) (s : State) :
    exec (.cellRelease j) s =
      s.eng (s.cellRelease j) := rfl
theorem exec_setSkipped (j : Fin 4) (s : State) :
    exec (.setSkipped j) s =
      s.eng (s.setSkipped j) := rfl
theorem exec_cellCompletionReport (j : Fin 4) (n : Fin 16) (s : State) :
    exec (.cellCompletionReport j n) s =
      s.eng (s.completionReport j n) := rfl
theorem exec_cellGate (j : Fin 4) (s : State) :
    exec (.cellGate j) s =
      s.eng (s.cellGate j) := rfl
theorem exec_verdictEmit (j : Fin 4) (s : State) :
    exec (.verdictEmit j) s =
      s.eng (s.verdictEmit j) := rfl
theorem exec_planSwitch (j : Fin 4) (s : State) :
    exec (.planSwitch j) s =
      s.eng (s.planSwitch j) := rfl
theorem exec_forcePlan (a : Agent) (j : Fin 4) (v : Word) (s : State) :
    exec (.forcePlan a j v) s =
      .next (Safety.ended (s.guardedWrite a (feSlm j) 0x040 (setBit v.toNat 11) (slalomCtrlWrite a j))) := rfl
theorem exec_slalomClear (a : Agent) (j : Fin 4) (v : Word) (s : State) :
    exec (.slalomClear a j v) s =
      .next (Safety.ended (s.guardedWrite a (feSlm j) 0x040 (setBit v.toNat 12) (slalomCtrlWrite a j))) := rfl
theorem exec_chairliftFetchStart (i : Fin 144) (s : State) :
    exec (.chairliftFetchStart i) s =
      s.eng (s.fetchStart i) := rfl
theorem exec_chairliftTransferDone (i : Fin 144) (failed : Bool) (s : State) :
    exec (.chairliftTransferDone i failed) s =
      s.eng (s.liftDone i failed) := rfl
theorem exec_gondolaTileCredit (g : Fin 16) (recv : Fin 144) (s : State) :
    exec (.gondolaTileCredit g recv) s =
      s.eng (if recv.val < 16 then s else s.tileCredit g recv) := rfl
theorem exec_gondolaDetach (g : Fin 16) (recv : Fin 144) (s : State) :
    exec (.gondolaDetach g recv) s =
      s.eng (if recv.val < 16 then s else s.gdDetach g recv) := rfl
theorem exec_dmaGo (a : Agent) (c : Fin 16) (v : Word) (s : State) :
    exec (.dmaGo a c v) s =
      .next (Safety.ended (s.guardedWrite a (dmCh c) 0x40 (setBit v.toNat 31) (State.dmCtrlWrite a c))) := rfl
theorem exec_dmaAbort (a : Agent) (c : Fin 16) (v : Word) (s : State) :
    exec (.dmaAbort a c v) s =
      .next (Safety.ended (s.guardedWrite a (dmCh c) 0x40 (setBit v.toNat 30) (State.dmCtrlWrite a c))) := rfl
theorem exec_dmaSlotStart (c : Fin 16) (s : State) :
    exec (.dmaSlotStart c) s =
      s.eng (s.dmaSlotStart c) := rfl
theorem exec_dmaSlotDone (c : Fin 16) (s : State) :
    exec (.dmaSlotDone c) s =
      s.eng (s.dmaSlotDone c) := rfl
theorem exec_dmaSlotBad (c : Fin 16) (err : DmaError) (bytesDone : Nat) (s : State) :
    exec (.dmaSlotBad c err bytesDone) s =
      s.eng (s.dmaSlotBad c err bytesDone) := rfl
theorem exec_windowOpen (a : Agent) (w : Fin 256) (v : Word) (s : State) :
    exec (.windowOpen a w v) s =
      .next (Safety.ended (s.guardedWrite a (winPage w) (0x800 + 0x20 * winEnt w) (setBit v.toNat 29) (State.winCtrlWrite a w))) := rfl
theorem exec_windowClose (a : Agent) (w : Fin 256) (v : Word) (s : State) :
    exec (.windowClose a w v) s =
      .next (Safety.ended (s.guardedWrite a (winPage w) (0x800 + 0x20 * winEnt w) (clrBit v.toNat 29) (State.winCtrlWrite a w))) := rfl
theorem exec_windowCloseDone (w : Fin 256) (s : State) :
    exec (.windowCloseDone w) s =
      s.eng (s.winCloseDone w) := rfl
theorem exec_windowWrite (node : Fin 4) (dma : Bool) (addr : BitVec 64) (data : List Byte) (s : State) :
    exec (.windowWrite node dma addr data) s =
      s.eng (if State.winSized data.length && (dma || node.val == s.node) then (s.winWrite node addr.toNat data).1 else s) := rfl
theorem exec_windowArrival (w : Fin 256) (s : State) :
    exec (.windowArrival w) s =
      s.eng (s.winLand w) := rfl
theorem exec_windowTargetWrite (a : Agent) (w : Fin 256) (v : Word) (s : State) :
    exec (.windowTargetWrite a w v) s =
      .next (Safety.ended (s.guardedWrite a (winPage w) (0x810 + 0x20 * winEnt w) v.toNat (State.winTargetWrite a w))) := rfl
theorem exec_adaptLabel (ring : Fin 8) (s : State) :
    exec (.adaptLabel ring) s =
      s.eng (s.serve ring 0x40 (State.cmdAdaptLabel ring)) := rfl
theorem exec_adaptSwap (ring : Fin 8) (s : State) :
    exec (.adaptSwap ring) s =
      s.eng (s.serve ring 0x41 (State.cmdAdaptSwap ring)) := rfl
theorem exec_adaptPause (ring : Fin 8) (s : State) :
    exec (.adaptPause ring) s =
      s.eng (s.serve ring 0x42 (State.cmdAdaptPause ring)) := rfl
theorem exec_adaptResume (ring : Fin 8) (s : State) :
    exec (.adaptResume ring) s =
      s.eng (s.serve ring 0x43 (State.cmdAdaptResume ring)) := rfl
theorem exec_adaptRollback (ring : Fin 8) (s : State) :
    exec (.adaptRollback ring) s =
      s.eng (s.serve ring 0x44 (State.cmdAdaptRollback ring)) := rfl
theorem exec_adaptStep (j : Fin 4) (s : State) :
    exec (.adaptStep j) s =
      s.eng (s.adaptStep j) := rfl
theorem exec_adaptStepDone (j : Fin 4) (s : State) :
    exec (.adaptStepDone j) s =
      s.eng (s.adaptStepDone j) := rfl
theorem exec_weightSwap (j : Fin 4) (s : State) :
    exec (.weightSwap j) s =
      s.eng (s.weightSwap j) := rfl
theorem exec_gddr6Training (ok : BitVec 8) (s : State) :
    exec (.gddr6Training ok) s =
      s.eng (s.gddrTrain ok.toNat) := rfl
theorem exec_gddr6InitDone (s : State) :
    exec .gddr6InitDone s =
      s.eng s.gddrInit := rfl
theorem exec_gddr6Request (agent : Nat) (write : Bool) (addr : Nat) (data : List Byte) (len errBits edcErrors : Nat) (s : State) :
    exec (.gddr6Request agent write addr data len errBits edcErrors) s =
      s.eng (s.gddrRequest agent write addr data len errBits edcErrors) := rfl
theorem exec_gddr6Retrain (a : Agent) (c : Fin 8) (v : Word) (s : State) :
    exec (.gddr6Retrain a c v) s =
      .next (Safety.ended (s.guardedWrite a (mxCh c) 0x40 (setBit v.toNat 3) (State.chCtrlWrite a c))) := rfl
theorem exec_gddr6RetrainDone (c : Fin 8) (ok : Bool) (s : State) :
    exec (.gddr6RetrainDone c ok) s =
      s.eng (s.retrainDone c ok) := rfl
theorem exec_gddr6PatrolRead (c : Fin 8) (block : Word) (errBits : Nat) (s : State) :
    exec (.gddr6PatrolRead c block errBits) s =
      s.eng (s.patrolRead c block.toNat errBits) := rfl
theorem exec_gddr6Refresh (c : Fin 8) (s : State) :
    exec (.gddr6Refresh c) s =
      s.eng (s.gddrRefresh c) := rfl
theorem exec_gddr6TemperatureRead (c : Fin 8) (tempC : Int) (s : State) :
    exec (.gddr6TemperatureRead c tempC) s =
      s.eng (s.tempRead c tempC) := rfl
theorem exec_sramPatrolRead (place : SramPlace) (errBits : Nat) (s : State) :
    exec (.sramPatrolRead place errBits) s =
      s.eng (s.sramPatrol place errBits) := rfl
theorem exec_sramUncorrectable (place : SramPlace) (s : State) :
    exec (.sramUncorrectable place) s =
      s.eng (s.sramUe place) := rfl
theorem exec_sharedHeaderError (corrected : Bool) (s : State) :
    exec (.sharedHeaderError corrected) s =
      s.eng (s.headerError corrected) := rfl
theorem exec_ctrlParity (d : Fin 4) (page : Nat) (segment : Bool) (s : State) :
    exec (.ctrlParity d page segment) s =
      s.eng (s.ctrlParity d page segment) := rfl
theorem exec_domainWatchdog (d : Fin 4) (s : State) :
    exec (.domainWatchdog d) s =
      s.eng (s.watchdog d) := rfl
theorem exec_fenceCmd (a : Agent) (d : Fin 4) (v : Word) (s : State) :
    exec (.fenceCmd a d v) s =
      .next (Safety.ended (s.guardedWrite a pwPage (0x200 + 0x20 * d) (setBit v.toNat 31) (State.domCtrlWrite a d))) := rfl
theorem exec_hotResetCmd (a : Agent) (d : Fin 4) (v : Word) (s : State) :
    exec (.hotResetCmd a d v) s =
      .next (Safety.ended (s.guardedWrite a pwPage (0x200 + 0x20 * d) (setBit v.toNat 30) (State.domCtrlWrite a d))) := rfl
theorem exec_autoReset (d : Fin 4) (s : State) :
    exec (.autoReset d) s =
      s.eng (s.autoReset d) := rfl
theorem exec_hotResetDone (d : Fin 4) (s : State) :
    exec (.hotResetDone d) s =
      s.eng (s.resetDone d) := rfl
theorem exec_hotResetFail (d : Fin 4) (code : BitVec 16) (s : State) :
    exec (.hotResetFail d code) s =
      s.eng (s.resetFail d code.toNat) := rfl
theorem exec_eventWindowEnd (d : Fin 4) (s : State) :
    exec (.eventWindowEnd d) s =
      s.eng (s.eventWindowEnd d) := rfl
theorem exec_nonce (ring : Fin 8) (s : State) :
    exec (.nonce ring) s =
      s.eng (s.serve ring 0x60 (State.cmdNonce ring)) := rfl
theorem exec_ownerInstall (ring : Fin 8) (s : State) :
    exec (.ownerInstall ring) s =
      s.eng (s.serve ring 0x61 (State.cmdOwnerInstall ring)) := rfl
theorem exec_ownerRevoke (ring : Fin 8) (s : State) :
    exec (.ownerRevoke ring) s =
      s.eng (s.serve ring 0x62 (State.cmdOwnerRevoke ring)) := rfl
theorem exec_sessionKeySet (ring : Fin 8) (s : State) :
    exec (.sessionKeySet ring) s =
      s.eng (s.serve ring 0x63 (State.cmdSessionKeySet ring)) := rfl
theorem exec_policySet (ring : Fin 8) (s : State) :
    exec (.policySet ring) s =
      s.eng (s.serve ring 0x64 (State.cmdPolicySet ring)) := rfl
theorem exec_quote (ring : Fin 8) (s : State) :
    exec (.quote ring) s =
      s.eng (s.serve ring 0x65 (State.cmdQuote ring)) := rfl
theorem exec_identitySignature (journalOk : Bool) (s : State) :
    exec (.identitySignature journalOk) s =
      s.eng (s.identitySign journalOk) := rfl
theorem exec_debugUnlock (ring : Fin 8) (s : State) :
    exec (.debugUnlock ring) s =
      s.eng (s.serve ring 0x66 (State.cmdDebugUnlock ring)) := rfl
theorem exec_debugLock (ring : Fin 8) (s : State) :
    exec (.debugLock ring) s =
      s.eng (s.serve ring 0x67 (State.cmdDebugLock ring)) := rfl
theorem exec_debugUnlockExpiry (s : State) :
    exec .debugUnlockExpiry s =
      s.eng s.debugExpiry := rfl
theorem exec_sessionOpen (a : Agent) (i : Fin 8) (v : Word) (s : State) :
    exec (.sessionOpen a i v) s =
      .next (Safety.ended (s.guardedWrite a (ppSess i) 0x40 (setBit v.toNat 31) (State.sessCtrlWrite a i))) := rfl
theorem exec_sessionProve (a : Agent) (i : Fin 8) (v : Word) (s : State) :
    exec (.sessionProve a i v) s =
      .next (Safety.ended (s.guardedWrite a (ppSess i) 0x40 (setBit v.toNat 30) (State.sessCtrlWrite a i))) := rfl
theorem exec_sessionClose (a : Agent) (i : Fin 8) (v : Word) (s : State) :
    exec (.sessionClose a i v) s =
      .next (Safety.ended (s.guardedWrite a (ppSess i) 0x40 (setBit v.toNat 29) (State.sessCtrlWrite a i))) := rfl
theorem exec_sessionChallengeTimeout (i : Fin 8) (s : State) :
    exec (.sessionChallengeTimeout i) s =
      s.eng (s.challengeTimeout i) := rfl
theorem exec_sessionBackoffEnd (i : Fin 8) (s : State) :
    exec (.sessionBackoffEnd i) s =
      s.eng (s.backoffEnd i) := rfl
theorem exec_sqDoorbell (a : Agent) (ring : Fin 8) (v : Word) (s : State) :
    exec (.sqDoorbell a ring v) s =
      .next (Safety.ended (s.guardedWrite a (pxCmd ring) 0x54 v.toNat (State.sqTailWrite a ring))) := rfl
theorem exec_frameReadFail (ring : Fin 8) (s : State) :
    exec (.frameReadFail ring) s =
      s.eng (s.frameReadFail ring) := rfl
theorem exec_scrubComplete (j : Fin 4) (s : State) :
    exec (.scrubComplete j) s =
      s.eng (s.scrubDone j) := rfl
theorem exec_storeStatus (ring : Fin 8) (s : State) :
    exec (.storeStatus ring) s =
      s.eng (s.serve ring 0x50 (State.storeRun ring (State.cmdStoreStatus ring))) := rfl
theorem exec_modelStore (ring : Fin 8) (s : State) :
    exec (.modelStore ring) s =
      s.eng (s.serve ring 0x51 (State.storeRun ring (State.cmdModelStore ring))) := rfl
theorem exec_modelErase (ring : Fin 8) (s : State) :
    exec (.modelErase ring) s =
      s.eng (s.serve ring 0x52 (State.storeRun ring (State.cmdModelErase ring))) := rfl
theorem exec_archiveRead (ring : Fin 8) (nand : NandOutcome) (s : State) :
    exec (.archiveRead ring nand) s =
      s.eng (s.serve ring 0x53 (State.storeRun ring (State.cmdArchiveRead nand ring))) := rfl
theorem exec_logRead (ring : Fin 8) (s : State) :
    exec (.logRead ring) s =
      s.eng (s.serve ring 0x54 (State.storeRun ring (State.cmdLogRead ring))) := rfl
theorem exec_fwWrite (ring : Fin 8) (s : State) :
    exec (.fwWrite ring) s =
      s.eng (s.serve ring 0x55 (State.storeRun ring (State.cmdFwWrite ring))) := rfl
theorem exec_storeMount (ok : Bool) (s : State) :
    exec (.storeMount ok) s =
      s.eng (s.storeMount ok) := rfl
theorem exec_storeFormat (factoryBad : List Nat) (s : State) :
    exec (.storeFormat factoryBad) s =
      s.eng (s.storeFormat factoryBad) := rfl
theorem exec_archiveWrite (nand : NandOutcome) (s : State) :
    exec (.archiveWrite nand) s =
      s.eng (s.archiveWrite nand) := rfl
theorem exec_blockRefresh (nand : NandOutcome) (s : State) :
    exec (.blockRefresh nand) s =
      s.eng (s.blockRefresh nand) := rfl
theorem exec_wearLevelCopy (s : State) :
    exec .wearLevelCopy s =
      s.eng s.wearCopy := rfl
theorem exec_disturbScan (block : Nat) (nand : NandOutcome) (s : State) :
    exec (.disturbScan block nand) s =
      s.eng (s.disturbScan block nand) := rfl
theorem exec_retentionScan (block : Nat) (nand : NandOutcome) (s : State) :
    exec (.retentionScan block nand) s =
      s.eng (s.retentionScan block nand) := rfl
theorem exec_vringTrailer (ring : Fin 8) (s : State) :
    exec (.vringTrailer ring) s =
      s.eng (s.serve ring 0x70 (State.cmdVringTrailer ring)) := rfl
theorem exec_vringConfig (a : Agent) (r : Fin 32) (v : Word) (s : State) :
    exec (.vringConfig a r v) s =
      .next (Safety.ended (s.guardedWrite a (pxVr r) 0x48 v.toNat (State.vrCfgWrite a r))) := rfl
theorem exec_commandRingConfig (a : Agent) (ring : Fin 8) (v : Word) (s : State) :
    exec (.commandRingConfig a ring v) s =
      .next (Safety.ended (s.guardedWrite a (pxCmd ring) 0x50 v.toNat (State.crCfgWrite a ring))) := rfl
theorem exec_faultRingConfig (a : Agent) (v : Word) (s : State) :
    exec (.faultRingConfig a v) s =
      .next (Safety.ended (s.guardedWrite a pxFaultPage 0x48 v.toNat (State.fltCfgWrite a))) := rfl
theorem exec_linkDown (s : State) :
    exec .linkDown s =
      .next (Safety.ended (s.linkDown)) := rfl
theorem exec_linkUp (gen : Fin 6) (width : BitVec 8) (s : State) :
    exec (.linkUp gen width) s =
      .next (Safety.ended (s.linkUp gen width.toNat)) := rfl
theorem exec_functionReset (perst : Bool) (s : State) :
    exec (.functionReset perst) s =
      .next (Safety.ended (s.execReset perst)) := rfl
theorem exec_poisonedWrite (s : State) :
    exec .poisonedWrite s =
      .next (Safety.ended (s.poisoned)) := rfl
theorem exec_tzPortEnable (a : Agent) (p : Fin 3) (v : Word) (s : State) :
    exec (.tzPortEnable a p v) s =
      .next (Safety.ended (s.guardedWrite a (tzPort p) 0x40 v.toNat (State.tzCtrlWrite a p))) := rfl
theorem exec_tzRetrain (a : Agent) (p : Fin 3) (v : Word) (s : State) :
    exec (.tzRetrain a p v) s =
      .next (Safety.ended (s.guardedWrite a (tzPort p) 0x40 (setBit v.toNat 1) (State.tzCtrlWrite a p))) := rfl
theorem exec_tzTrainingDone (p : Fin 3) (t : TzTraining) (s : State) :
    exec (.tzTrainingDone p t) s =
      s.eng (s.tzTrained p t) := rfl
theorem exec_tzTrainingTimeout (p : Fin 3) (s : State) :
    exec (.tzTrainingTimeout p) s =
      s.eng (s.tzFailed p) := rfl
theorem exec_flitReceive (p : Fin 3) (flit : List Byte) (crcOk : Bool) (s : State) :
    exec (.flitReceive p flit crcOk) s =
      s.eng (s.tzFlit p flit crcOk) := rfl
theorem exec_flitReplay (p : Fin 3) (nak : Bool) (s : State) :
    exec (.flitReplay p nak) s =
      s.eng (s.tzReplay p nak) := rfl
theorem exec_tzLinkSilent (p : Fin 3) (s : State) :
    exec (.tzLinkSilent p) s =
      s.eng (s.tzSilent p) := rfl
theorem exec_write (p : Fin 3) (s : State) :
    exec (.write p) s =
      s.eng (s.tzWrite p) := rfl
theorem exec_writeRsp (p : Fin 3) (s : State) :
    exec (.writeRsp p) s =
      s.eng (s.tzWriteRsp p) := rfl
theorem exec_halo (p : Fin 3) (s : State) :
    exec (.halo p) s =
      s.eng (s.tzHalo p) := rfl
theorem exec_haloCredit (p : Fin 3) (s : State) :
    exec (.haloCredit p) s =
      s.eng (s.tzHaloCredit p) := rfl
theorem exec_timebaseSet (a : Agent) (v : Word) (s : State) :
    exec (.timebaseSet a v) s =
      .next (Safety.ended (s.guardedWrite a tbPage 0x54 v.toNat (State.timebaseSetWrite a))) := rfl
theorem exec_ppsEnable (a : Agent) (v : Word) (s : State) :
    exec (.ppsEnable a v) s =
      .next (Safety.ended (s.guardedWrite a tbPage 0x40 v.toNat (State.ppsEnableWrite a))) := rfl
theorem exec_ppsEdge (falling withLoad : Bool) (s : State) :
    exec (.ppsEdge falling withLoad) s =
      s.eng (s.ppsEdge falling withLoad) := rfl
theorem exec_ppsLost (s : State) :
    exec .ppsLost s =
      s.eng s.ppsLost := rfl
theorem exec_encoderEdge (n : Fin 4) (a b : Bool) (s : State) :
    exec (.encoderEdge n a b) s =
      s.eng (s.encoderEdge n a b) := rfl
theorem exec_encoderPosWrite (a : Agent) (n : Fin 4) (v : Word) (s : State) :
    exec (.encoderPosWrite a n v) s =
      .next (Safety.ended (s.guardedWrite a tbPage (0x84 + 0x10 * n) v.toNat (State.plainWrite a tbPage (0x84 + 0x10 * n)))) := rfl
theorem exec_markerArm (a : Agent) (m : Fin 16) (v : Word) (s : State) :
    exec (.markerArm a m v) s =
      .next (Safety.ended (s.guardedWrite a tbPage (0x110 + 0x20 * m) v.toNat (State.markerArmWrite a m))) := rfl
theorem exec_markerDue (m : Fin 16) (s : State) :
    exec (.markerDue m) s =
      s.eng (s.markerDue m) := rfl
theorem exec_markerPulseEnd (m : Fin 16) (s : State) :
    exec (.markerPulseEnd m) s =
      s.eng (s.markerPulseEnd m) := rfl
theorem exec_gpioEdge (pin : Fin 16) (level : Bool) (s : State) :
    exec (.gpioEdge pin level) s =
      s.eng ((s.pinDrive pin level).pinLevel pin level) := rfl
theorem exec_pllUnlock (i : Fin 32) (s : State) :
    exec (.pllUnlock i) s =
      s.eng (s.pllUnlock i) := rfl
theorem exec_oscTrim (cycles : Nat) (s : State) :
    exec (.oscTrim cycles) s =
      s.eng (s.oscTrim cycles) := rfl
theorem exec_clkoutSwitch (a : Agent) (v : Word) (s : State) :
    exec (.clkoutSwitch a v) s =
      .next (Safety.ended (s.guardedWrite a ckPage 0x60 v.toNat (State.clkoutWrite a))) := rfl
theorem exec_powerStateRequest (a : Agent) (v : Word) (s : State) :
    exec (.powerStateRequest a v) s =
      .next (Safety.ended (s.guardedWrite a pwPage 0x40 v.toNat (State.psReqWrite a))) := rfl
theorem exec_powerStateEntered (s : State) :
    exec .powerStateEntered s =
      s.eng s.psEntered := rfl
theorem exec_wakeEvent (src : BitVec 18) (s : State) :
    exec (.wakeEvent src) s =
      s.eng (s.wakeEvent src.toNat) := rfl
theorem exec_powerStateExitDone (s : State) :
    exec .powerStateExitDone s =
      s.eng s.exitDone := rfl
theorem exec_glideEntry (s : State) :
    exec .glideEntry s =
      s.eng s.glideEntry := rfl
theorem exec_thermalCompare (s : State) :
    exec .thermalCompare s =
      s.eng s.thermalCompare := rfl
theorem exec_thermalTrip (s : State) :
    exec .thermalTrip s =
      s.eng s.thermalTrip := rfl
theorem exec_railUndervoltage (rail : Fin 12) (s : State) :
    exec (.railUndervoltage rail) s =
      s.eng (s.railLow rail) := rfl
theorem exec_pwrOkFall (s : State) :
    exec .pwrOkFall s =
      s.eng s.pwrOkFall := rfl
theorem exec_pwrOkRise (s : State) :
    exec .pwrOkRise s =
      s.eng s.pwrOkRise := rfl
theorem exec_pwrOkTimeout (s : State) :
    exec .pwrOkTimeout s =
      s.eng s.pwrOkTimeout := rfl
theorem exec_functionD3hot (d3 : Bool) (s : State) :
    exec (.functionD3hot d3) s =
      .next (Safety.ended (if s.hostWaits then s.holdHost (.d3 d3) else s.functionD3 d3)) := rfl
theorem exec_waxTempCompare (s : State) :
    exec .waxTempCompare s =
      s.eng s.waxCompare := rfl
theorem exec_waxPeriod (s : State) :
    exec .waxPeriod s =
      s.eng s.waxPeriod := rfl
theorem exec_waxRunCmd (a : Agent) (v : Word) (s : State) :
    exec (.waxRunCmd a v) s =
      .next (Safety.ended (s.guardedWrite a wxPage 0x40 (setBit v.toNat 31) (State.wxCtrlWrite a))) := rfl
theorem exec_waxRunComplete (tj : Int) (measured : List Int) (s : State) :
    exec (.waxRunComplete tj measured) s =
      s.eng (s.waxFinish tj measured) := rfl
theorem exec_waxSetApply (unit : Nat) (s : State) :
    exec (.waxSetApply unit) s =
      s.eng (s.waxTake unit) := rfl
theorem exec_monitorConversion (i : Fin 64) (value : BitVec 16) (s : State) :
    exec (.monitorConversion i value) s =
      s.eng (s.monitorConvert i value.toNat) := rfl
theorem exec_counterFreeze (a : Agent) (v : Word) (s : State) :
    exec (.counterFreeze a v) s =
      .next (Safety.ended (s.guardedWrite a pcPage 0x40 (setBit v.toNat 31) (State.pcCtrlWrite a))) := rfl
theorem exec_counterThaw (a : Agent) (v : Word) (s : State) :
    exec (.counterThaw a v) s =
      .next (Safety.ended (s.guardedWrite a pcPage 0x40 (setBit v.toNat 30) (State.pcCtrlWrite a))) := rfl
theorem exec_counterSnapshot (a : Agent) (v : Word) (s : State) :
    exec (.counterSnapshot a v) s =
      .next (Safety.ended (s.guardedWrite a pcPage 0x40 (setBit v.toNat 29) (State.pcCtrlWrite a))) := rfl
theorem exec_counterCollect (a : Agent) (v : Word) (s : State) :
    exec (.counterCollect a v) s =
      .next (Safety.ended (s.guardedWrite a pcPage 0x40 (setBit v.toNat 28) (State.pcCtrlWrite a))) := rfl
theorem exec_collectionComplete (s : State) :
    exec .collectionComplete s =
      s.eng s.collectDone := rfl
theorem exec_counterDump (ring : Fin 8) (s : State) :
    exec (.counterDump ring) s =
      s.eng (if s.cnt.collect.isSome then s else s.serve ring 0x71 (State.cmdCounterDump ring)) := rfl
theorem exec_counterLoad (a : Agent) (page : Nat) (i : Fin 8) (v : Word) (s : State) :
    exec (.counterLoad a page i v) s =
      .next (Safety.ended (s.guardedWrite a page (0xF24 + 8 * i) v.toNat (State.cntHiWrite page i))) := rfl
theorem exec_counterWrap (page : Nat) (i : Fin 8) (s : State) :
    exec (.counterWrap page i) s =
      s.eng (s.counterWrap page i) := rfl
theorem exec_bwMonitorConfig (a : Agent) (k : Fin 16) (v : Word) (s : State) :
    exec (.bwMonitorConfig a k v) s =
      .next (Safety.ended (s.guardedWrite a pcPage (0x80 + 0x10 * k) v.toNat (State.bwCfgWrite a k))) := rfl
theorem exec_bwWindowEnd (k : Fin 16) (s : State) :
    exec (.bwWindowEnd k) s =
      s.eng (s.bwWindowEnd k) := rfl
theorem exec_memPolicy (ring : Fin 8) (s : State) :
    exec (.memPolicy ring) s =
      s.eng (s.serve ring 0x72 (State.cmdMemPolicy ring)) := rfl
theorem exec_jobLoad (ring : Fin 8) (s : State) :
    exec (.jobLoad ring) s =
      s.eng (s.serve ring 0x73 (State.cmdJobLoad ring)) := rfl
theorem exec_jobStop (ring : Fin 8) (s : State) :
    exec (.jobStop ring) s =
      s.eng (s.serve ring 0x74 (State.cmdJobStop ring)) := rfl

end Sys2Proof.Laws
end

