-- ==== Sys2Proof/Laws/Crypto.lean ====
section
/-! SUPPORT. Laws of byte lists and of the cryptographic primitives: what a digest's length is, that decryption undoes encryption, and
that a signature verifies under the key whose root it gives. -/

namespace Sys2Proof.Laws

open Sys2Proof Sys2Proof.Machine

/-! ### Parts of byte lists -/

@[simp] theorem sub_length (bs : List Byte) (o n : Nat) : (sub bs o n).length = n := by simp [sub]

/-- The part of a list that one of its pieces is. -/
theorem sub_append_piece (a b c : List Byte) : sub (a ++ (b ++ c)) a.length b.length = b := by
  apply List.ext_getElem
  · simp
  · intro i h1 h2
    simp only [sub, List.getElem_map, List.getElem_range]
    rw [List.getD_eq_getElem?_getD, List.getElem?_append_right (by omega), Nat.add_sub_cancel_left, List.getElem?_append_left (by omega)]
    simp [h2]

/-- A part within the first piece of a list. -/
theorem sub_append_left (a b : List Byte) (o n : Nat) (h : o + n ≤ a.length) : sub (a ++ b) o n = sub a o n := by
  apply List.ext_getElem
  · simp
  · intro i h1 h2
    simp only [sub_length] at h1
    simp only [sub, List.getElem_map, List.getElem_range, List.getD_eq_getElem?_getD]
    rw [List.getElem?_append_left (by omega)]

/-- A part beyond the first piece of a list. -/
theorem sub_append_right (a b : List Byte) (o n : Nat) (h : a.length ≤ o) : sub (a ++ b) o n = sub b (o - a.length) n := by
  apply List.ext_getElem
  · simp
  · intro i h1 h2
    simp only [sub_length] at h1
    simp only [sub, List.getElem_map, List.getElem_range, List.getD_eq_getElem?_getD]
    rw [List.getElem?_append_right (by omega)]
    congr 2
    omega

theorem sub_self (a : List Byte) : sub a 0 a.length = a := by
  simpa using sub_append_piece [] a []

@[simp] theorem leBytes_length (n v : Nat) : (leBytes n v).length = n := by
  induction n generalizing v with
  | zero => rfl
  | succ n ih => simp [leBytes, ih]

/-- The bytes of a number give it back. -/
theorem leNat_leBytes (n v : Nat) : leNat (leBytes n v) = v % 256 ^ n := by
  induction n generalizing v with
  | zero => simp [leBytes, leNat, Nat.mod_one]
  | succ n ih =>
    have e : 256 ^ (n + 1) = 256 * 256 ^ n := by rw [Nat.pow_succ, Nat.mul_comm]
    rw [leBytes, leNat, ih, BitVec.toNat_ofNat, e, Nat.mod_mul]

@[simp] theorem beBytes_length (n v : Nat) : (beBytes n v).length = n := by simp [beBytes]

@[simp] theorem zeros_length (n : Nat) : (zeros n).length = n := by simp [zeros]

/-- The front of what a read gives is the shorter read. -/
theorem take_memRead (m : List Host.Cell) (a n k : Nat) (h : k ≤ n) : (memRead m a n).take k = memRead m a k := by
  simp [memRead, ← List.map_take, List.take_range, Nat.min_eq_left h]

/-! ### SHA-256 and HMAC -/

theorem shaBlock_length (h : List Nat) (b : List Byte) (w : h.length = 8) : (shaBlock h b).length = 8 := by
  have fold : ∀ (l : List (Nat × Nat)) (v : List Nat), v.length = 8 →
      (l.foldl (fun (v : List Nat) wk =>
        let a := v.getD 0 0
        let b := v.getD 1 0
        let c := v.getD 2 0
        let e := v.getD 4 0
        let f := v.getD 5 0
        let g := v.getD 6 0
        let s1 := rotr e 6 ^^^ rotr e 11 ^^^ rotr e 25
        let ch := (e &&& f) ^^^ ((2 ^ 32 - 1 - e) &&& g)
        let t1 := v.getD 7 0 + s1 + ch + wk.2 + wk.1
        let s0 := rotr a 2 ^^^ rotr a 13 ^^^ rotr a 22
        let maj := (a &&& b) ^^^ (a &&& c) ^^^ (b &&& c)
        [(t1 + s0 + maj) % 2 ^ 32, a, b, c, (v.getD 3 0 + t1) % 2 ^ 32, e, f, g]) v).length = 8 := by
    intro l
    induction l with
    | nil => intro v hv; exact hv
    | cons x l ih => intro v _; exact ih _ rfl
  unfold shaBlock
  simp only [List.length_map, List.length_zip]
  rw [fold _ h w, w]
  rfl

/-- A digest has 32 bytes. -/
@[simp] theorem sha256_length (m : List Byte) : (sha256 m).length = 32 := by
  have fold : ∀ (l : List Nat) (p : List Byte) (h : List Nat), h.length = 8 →
      (l.foldl (fun h i => shaBlock h (sub p (64 * i) 64)) h).length = 8 := by
    intro l p
    induction l with
    | nil => intro h w; exact w
    | cons x l ih => intro h w; exact ih _ (shaBlock_length h _ w)
  unfold sha256
  simp only [List.length_flatMap, beBytes_length, List.map_const', List.sum_replicate_nat]
  rw [fold _ _ shaH0 rfl]

@[simp] theorem hmac_length (key m : List Byte) : (hmac key m).length = 32 := by simp [hmac]

/-! ### AES-GCM -/

theorem xorB_xorB (a b : List Byte) (h : a.length ≤ b.length) : xorB (xorB a b) b = a := by
  induction a generalizing b with
  | nil => simp [xorB]
  | cons x a ih =>
    cases b with
    | nil => simp at h
    | cons y b =>
      have := ih b (by simpa using h)
      simp only [xorB, List.zip_cons_cons, List.map_cons, List.cons.injEq] at this ⊢
      exact ⟨by rw [BitVec.xor_assoc, BitVec.xor_self, BitVec.xor_zero], this⟩

theorem xorL_length (a b : List Nat) : (xorL a b).length = min a.length b.length := by simp [xorL]

/-- The key schedule of a key of 32 bytes is 60 words of 4 bytes. -/
theorem aesExpand_shape (key : List Nat) (h : key.length = 32) :
    (aesExpand key).length = 60 ∧ ∀ w ∈ aesExpand key, w.length = 4 := by
  have fold : ∀ n ≤ 52, ∀ w0 : List (List Nat), w0.length = 8 → (∀ w ∈ w0, w.length = 4) →
      let e := (List.range n).foldl (fun (w : List (List Nat)) j =>
        let i := j + 8
        let t := w.getD (i - 1) []
        let t := if i % 8 = 0 then
            let u := (t.drop 1 ++ t.take 1).map sbox
            xorL u [2 ^ (i / 8 - 1), 0, 0, 0]
          else if i % 8 = 4 then t.map sbox else t
        w ++ [xorL (w.getD (i - 8) []) t]) w0
      e.length = 8 + n ∧ ∀ w ∈ e, w.length = 4 := by
    intro n
    induction n with
    | zero => intro _ w0 h0 h4; exact ⟨by simpa using h0, by simpa using h4⟩
    | succ n ih =>
      intro hn w0 h0 h4
      obtain ⟨l, a⟩ := ih (by omega) w0 h0 h4
      dsimp only at l a ⊢
      rw [List.range_succ, List.foldl_append, List.foldl_cons, List.foldl_nil]
      generalize (List.range n).foldl _ w0 = e at l a ⊢
      have get (i : Nat) (hi : i < 8 + n) : (e.getD i []).length = 4 := by
        have hi' : i < e.length := by omega
        rw [List.getD_eq_getElem?_getD, List.getElem?_eq_getElem hi', Option.getD_some]
        exact a _ (List.getElem_mem hi')
      have g1 := get (n + 8 - 1) (by omega)
      have g2 := get (n + 8 - 8) (by omega)
      refine ⟨by simp [l]; omega, ?_⟩
      intro w hw
      rw [List.mem_append, List.mem_singleton] at hw
      rcases hw with hw | rfl
      · exact a w hw
      · rw [xorL_length, g2]
        generalize e.getD (n + 8 - 1) [] = t at g1
        split
        · simp [xorL_length, g1]
        · split <;> simp [g1]
  have base : ((List.range 8).map fun i => (key.drop (4 * i)).take 4).length = 8 := by simp
  have four : ∀ w ∈ (List.range 8).map fun i => (key.drop (4 * i)).take 4, w.length = 4 := by
    intro w hw
    simp only [List.mem_map, List.mem_range] at hw
    obtain ⟨i, hi, rfl⟩ := hw
    simp; omega
  exact fold 52 (Nat.le_refl _) _ base four

/-- AES encrypts to a block of 16 bytes. -/
theorem aesEnc_length (key block : List Nat) (h : key.length = 32) : (aesEnc key block).length = 16 := by
  obtain ⟨l, a⟩ := aesExpand_shape key h
  have r : (roundKey (aesExpand key) 14).length = 16 := by
    unfold roundKey
    generalize hq : ((aesExpand key).drop (4 * 14)).take 4 = q
    have ql : q.length = 4 := by rw [← hq]; simp [l]
    have qa : ∀ w ∈ q, w.length = 4 := fun w hw => a w (by
      rw [← hq] at hw; exact List.mem_of_mem_drop (List.mem_of_mem_take hw))
    match q, ql, qa with
    | [w0, w1, w2, w3], _, qa => simp [qa]
  unfold aesEnc
  simp only [xorL_length, r, shiftRows, List.length_map, List.length_range]
  rfl

/-- The key stream is as long as asked for. -/
theorem gcmStream_length (key nonce : List Byte) (n : Nat) (h : key.length = 32) : (gcmStream key nonce n).length = n := by
  have hb (x : List Nat) : (bytesOf (aesEnc (natsOf key) x)).length = 16 := by
    simp only [bytesOf, List.length_map]
    exact aesEnc_length _ _ (by simpa [natsOf] using h)
  unfold gcmStream
  simp only [List.length_take, List.length_flatMap, hb, List.map_const', List.sum_replicate_nat, List.length_range]
  unfold cdiv
  omega

/-- A tag has 16 bytes. -/
theorem gcmTag_length (key nonce aad ct : List Byte) (h : key.length = 32) : (gcmTag key nonce aad ct).length = 16 := by
  unfold gcmTag
  simp only [xorB, bytesOf, List.length_map, List.length_zip, beBytes_length, aesEnc_length _ _ (show (natsOf key).length = 32 by
    simpa [natsOf] using h), Nat.min_self]

/-- A ciphertext is as long as its text, and its tag has 16 bytes. -/
theorem gcmEnc_length (key nonce aad pt : List Byte) (h : key.length = 32) :
    (gcmEnc key nonce aad pt).1.length = pt.length ∧ (gcmEnc key nonce aad pt).2.length = 16 := by
  unfold gcmEnc
  dsimp only
  refine ⟨?_, gcmTag_length key nonce aad _ h⟩
  simp [xorB, gcmStream_length key nonce pt.length h]

/-- HKDF gives a key of 32 bytes. -/
theorem hkdf_length (ikm salt info : List Byte) : (hkdf ikm salt info 32).length = 32 := by
  unfold hkdf
  rw [show List.range (cdiv 32 32) = [0] from rfl]
  simp

/-- Decryption gives back what was encrypted, under a key of 32 bytes. -/
theorem gcmDec_gcmEnc (key nonce aad pt : List Byte) (hk : key.length = 32) :
    gcmDec key nonce aad (gcmEnc key nonce aad pt).1 (gcmEnc key nonce aad pt).2 = some pt := by
  have h := gcmStream_length key nonce pt.length hk
  have l : (xorB pt (gcmStream key nonce pt.length)).length = pt.length := by simp [xorB, h]
  simp only [gcmDec, gcmEnc, if_true, l, xorB_xorB _ _ (Nat.le_of_eq h.symm)]

/-! ### Signatures -/

/-- The candidate root of an LMS key of height 5 has 32 bytes. -/
theorem lmsCandidate_length (ident : List Byte) (w p ls h : Nat) (sig msg : List Byte) :
    (lmsCandidate ident w p ls h sig msg).length = 32 := by
  unfold lmsCandidate
  rw [← List.foldr_reverse]
  generalize (List.range h).reverse = l
  cases l <;> simp

/-- The public key of one level whose root is a signature's candidate. -/
def keyOf (lt ot : Nat) (ident root : List Byte) : List Byte := beBytes 4 1 ++ (beBytes 4 lt ++ (beBytes 4 ot ++ (ident ++ root)))

/-- An LMS signature verifies under the key whose root it gives. -/
theorem lmsVerify_candidate (lt ot w p ls h : Nat) (ident sig msg : List Byte) (ho : otsParams ot = some (w, p, ls))
    (hh : lmsHeight lt = some h) (hl : beNat (beBytes 4 lt) = lt) (ht : beNat (beBytes 4 ot) = ot) (hi : ident.length = 16)
    (h1 : sig.length = lmsSigLen p h) (h2 : beNat (sub sig 4 4) = ot) (h3 : beNat (sub sig (40 + 32 * p) 4) = lt)
    (h4 : beNat (sub sig 0 4) < 2 ^ h) :
    lmsVerify (beBytes 4 lt ++ (beBytes 4 ot ++ (ident ++ lmsCandidate ident w p ls h sig msg))) sig msg = true := by
  have hr := lmsCandidate_length ident w p ls h sig msg
  generalize hR : lmsCandidate ident w p ls h sig msg = root at hr
  have e1 : sub (beBytes 4 lt ++ (beBytes 4 ot ++ (ident ++ root))) 0 4 = beBytes 4 lt := by
    simpa using sub_append_piece [] (beBytes 4 lt) (beBytes 4 ot ++ (ident ++ root))
  have e2 : sub (beBytes 4 lt ++ (beBytes 4 ot ++ (ident ++ root))) 4 4 = beBytes 4 ot := by
    simpa using sub_append_piece (beBytes 4 lt) (beBytes 4 ot) (ident ++ root)
  have e3 : sub (beBytes 4 lt ++ (beBytes 4 ot ++ (ident ++ root))) 8 16 = ident := by
    simpa [hi] using sub_append_piece (beBytes 4 lt ++ beBytes 4 ot) ident root
  have e4 : sub (beBytes 4 lt ++ (beBytes 4 ot ++ (ident ++ root))) 24 32 = root := by
    simpa [hi, hr] using sub_append_piece (beBytes 4 lt ++ (beBytes 4 ot ++ ident)) root []
  unfold lmsVerify
  simp only [e1, e2, e3, e4, hl, ht, ho, hh, h1, h2, h3, h4, hR, beq_self_eq_true, decide_true, Bool.and_self]

/-- So does an HSS signature of one level. -/
theorem hssVerify_candidate (lt ot w p ls h : Nat) (ident sig msg : List Byte) (ho : otsParams ot = some (w, p, ls))
    (hh : lmsHeight lt = some h) (hl : beNat (beBytes 4 lt) = lt) (ht : beNat (beBytes 4 ot) = ot) (hi : ident.length = 16)
    (h1 : sig.length = lmsSigLen p h) (h2 : beNat (sub sig 4 4) = ot) (h3 : beNat (sub sig (40 + 32 * p) 4) = lt)
    (h4 : beNat (sub sig 0 4) < 2 ^ h) :
    hssVerify (keyOf lt ot ident (lmsCandidate ident w p ls h sig msg)) (beBytes 4 0 ++ sig) msg = true := by
  have key := lmsVerify_candidate lt ot w p ls h ident sig msg ho hh hl ht hi h1 h2 h3 h4
  have e1 : sub (keyOf lt ot ident (lmsCandidate ident w p ls h sig msg)) 0 4 = beBytes 4 1 := by
    simpa [keyOf] using sub_append_piece [] (beBytes 4 1) (beBytes 4 lt ++ (beBytes 4 ot ++ (ident ++ lmsCandidate ident w p ls h sig msg)))
  have e2 : sub (beBytes 4 0 ++ sig) 0 4 = beBytes 4 0 := by simpa using sub_append_piece [] (beBytes 4 0) sig
  have e3 : (keyOf lt ot ident (lmsCandidate ident w p ls h sig msg)).drop 4 =
      beBytes 4 lt ++ (beBytes 4 ot ++ (ident ++ lmsCandidate ident w p ls h sig msg)) :=
    List.drop_left' (beBytes_length 4 1)
  have e4 : (beBytes 4 0 ++ sig).drop 4 = sig := List.drop_left' (beBytes_length 4 0)
  have n1 : beNat (beBytes 4 1) = 1 := by decide
  have n0 : beNat (beBytes 4 0) = 0 := by decide
  unfold hssVerify
  simp only [e1, e2, e3, e4, n1, n0]
  exact key

end Sys2Proof.Laws
end

