-- ==== Sys2Proof/Laws/Frames.lean ====
section
/-! SUPPORT. When a frame of a command ring is read and accepted, and when its owner authorisation is (R445, R451, R507 to R511). -/

namespace Sys2Proof.Laws

open Sys2Proof Sys2Proof.Machine Sys2Proof.Machine.State

/-- A ring that may be served, whose slot in host memory holds a frame, gives that frame. -/
theorem frameAt_eq (s : State) (r a : Nat) (m : List Host.Cell) (f : List Byte)
    (open' : (!s.flag (pxCmd r) PX_CR_CFG_en || s.getF (pxCmd r) PX_SQ_HEAD_head == s.getF (pxCmd r) PX_SQ_TAIL_tail || !s.link.up ||
      s.cqFree r == 0 || s.link.held.any (fun x => x.ring == r)) = false)
    (slot : s.get64 (pxCmd r) PX_SQ_BASE_LO_addr_lo PX_SQ_BASE_HI_addr_hi / 4096 * 4096 +
      s.getF (pxCmd r) PX_SQ_HEAD_head % 2 ^ s.getF (pxCmd r) PX_CR_CFG_sq_log2 * 4096 = a)
    (host : s.host = memWrite m a f) (len : f.length = 32 + min 4064 (le f 2 2)) : s.frameAt r = some f := by
  have hd : s.hostRd a 32 = f.take 32 := by
    unfold State.hostRd
    rw [host, ← take_memRead _ a f.length 32 (by omega), memRead_memWrite]
  have hl : le (f.take 32) 2 2 = le f 2 2 := by
    have := sub_append_left (f.take 32) (f.drop 32) 2 2 (by simp; omega)
    rw [List.take_append_drop] at this
    simp only [le, this]
  unfold State.frameAt
  simp only [open', slot, hd, hl, ← len, Bool.false_eq_true, if_false]
  unfold State.hostRd
  rw [host, memRead_memWrite]

/-- A frame of the ring's open session with its tag, a new sequence number and a command within the session's rights passes. -/
theorem frameTest_eq (s : State) (r : Nat) (f : List Byte) (hr : r < 8) (own : frameSess f = r) (state : s.sessState r = 2)
    (len : le f 2 2 ≤ 4064) (zero : le f 5 1 = 0)
    (tag : sub f 16 16 = (hmac (s.sess r).key (f.take 16 ++ frameBody f)).take 16)
    (new : s.get64 (ppSess r) PP_SESS_SEQ_LO_seq_lo PP_SESS_SEQ_HI_seq_hi < frameSeq f) (known : opKnown (frameOp f) = true)
    (right : (opRight (frameOp f)).all (bit (s.getF (ppSess r) PP_SESS_STAT_rights)) = true) : s.frameTest r f = 0 := by
  have no : (r == 0xFF) = false := by simp; omega
  unfold State.frameTest
  simp only [own, no, state, zero, tag, known, bne_self_eq_false, Bool.false_and, Bool.not_false, Bool.true_and, Bool.or_self,
    Bool.false_eq_true, if_false, Nat.not_lt.mpr len, or_self, ne_eq, not_true_eq_false, Bool.not_true, Bool.false_or]
  rw [if_neg (by simp; omega)]
  cases h : opRight (frameOp f) with
  | none => rfl
  | some b => rw [h] at right; simp only [Option.all_some] at right; simp [right]

/-- Such a frame with the command asked for is accepted. -/
theorem accepted_eq (s : State) (r op : Nat) (f : List Byte) (hr : r < 8) (head : s.frameAt r = some f) (own : frameSess f = r)
    (hop : frameOp f = op) (test : s.frameTest r f = 0) :
    Safety.accepted s r op = some
      ((s.set64 (ppSess r) PP_SESS_SEQ_LO_seq_lo PP_SESS_SEQ_HI_seq_hi (frameSeq f)).takeFrame r f (s.sess r).key, f) := by
  have no : ¬r = 0xFF := by omega
  unfold Safety.accepted
  simp only [head, hop, test, own, no, and_self, if_true, if_false]

/-- The authorisation that follows the first n bytes of a body is accepted of a valid owner whose key's hash the slot holds, in the 60
seconds after the nonce (R445). -/
theorem authorised_eq (s : State) (r n k t : Nat) (f pre tail pub sig nd : List Byte) (body : frameBody f = pre ++ (tail ++ (pub ++ sig)))
    (hpre : pre.length = n) (htail : tail.length = 4) (hk : le tail 0 1 = k) (hpub : pub.length = 60)
    (nonce : (s.sess r).nonce = some (nd, t)) (slot : k < 3) (valid : (s.owner k).state = 1) (hash : (s.owner k).hash = sha256 pub)
    (params : State.ownerKeyOk pub = true)
    (signed : hssVerify pub sig (ascii "AX9160 OWNER" ++ leBytes 2 (frameOp f) ++ s.deviceId ++ nd ++ pre) = true)
    (time : s.time.elapsed < t + 60 * second) : (s.authorised r f n).1 = some k := by
  have e0 : (pre ++ (tail ++ (pub ++ sig))).drop n = tail ++ (pub ++ sig) := List.drop_left' hpre
  have e1 : (tail ++ (pub ++ sig)).drop 64 = sig := by
    rw [← List.append_assoc]; exact List.drop_left' (by simp [htail, hpub])
  have e2 : sub (tail ++ (pub ++ sig)) 4 60 = pub := by simpa [htail, hpub] using sub_append_piece tail pub sig
  have e3 : le (tail ++ (pub ++ sig)) 0 1 = k := by
    rw [← hk]; simp only [le]; rw [sub_append_left _ _ _ _ (by omega)]
  have e4 : (pre ++ (tail ++ (pub ++ sig))).take n = pre := List.take_left' hpre
  unfold State.authorised
  simp only [body, e0, e1, e2, e3, e4, nonce, slot, valid, hash, params, signed, time, decide_true, beq_self_eq_true, Bool.and_self,
    if_true]

/-- The monitors of a port count bytes, and nothing else changes. -/
theorem countBw_eq (s : State) (port n : Nat) : ∃ t, s.countBw port n = { s with cnt := { s.cnt with bwBytes := t } } := by
  unfold State.countBw
  induction List.range 16 generalizing s with
  | nil => exact ⟨s.cnt.bwBytes, rfl⟩
  | cons k l ih =>
    rw [List.foldl_cons]
    dsimp only
    split
    · obtain ⟨t, e⟩ := ih { s with cnt := { s.cnt with
        bwBytes := tabPut (fun _ => 0) s.cnt.bwBytes k (tabGet (fun _ => 0) s.cnt.bwBytes k + n) } }
      exact ⟨t, e⟩
    · exact ih s

/-- A frame taken is held until its reply; but for counters nothing else changes. -/
theorem takeFrame_rest (s : State) (r : Nat) (f key : List Byte) : ∃ t, Safety.rest (s.takeFrame r f key) =
    Safety.rest { s with
      cnt := { s.cnt with bwBytes := t }, link := { s.link with held := s.link.held ++ [⟨r, f, key, none, false⟩] } } := by
  obtain ⟨t, e⟩ := countBw_eq s 25 (cdiv f.length 64 * 64)
  refine ⟨t, ?_⟩
  unfold State.takeFrame State.pcieRdCount
  rw [e]
  generalize hu : ({ s with cnt := { s.cnt with bwBytes := t } } : State) = u
  have hr := rest_countEvt u pxCommonPage 0x10 (cdiv f.length 64 * 64)
  have hl := link_held_of_rest hr
  have h := congrArg (fun x : State => ({ x with link := { x.link with held := u.link.held ++ [⟨r, f, key, none, false⟩] } } : State)) hr
  dsimp only
  rw [hl]
  subst hu
  exact h

theorem takeFrame_sec (s : State) (r : Nat) (f key : List Byte) : (s.takeFrame r f key).sec = s.sec := by
  obtain ⟨t, e⟩ := takeFrame_rest s r f key
  have h := sec_of_rest e
  exact h

theorem takeFrame_store (s : State) (r : Nat) (f key : List Byte) : (s.takeFrame r f key).store = s.store := by
  obtain ⟨t, e⟩ := takeFrame_rest s r f key
  have h := store_of_rest e
  exact h

theorem takeFrame_time (s : State) (r : Nat) (f key : List Byte) : (s.takeFrame r f key).time = s.time := by
  obtain ⟨t, e⟩ := takeFrame_rest s r f key
  have h := time_of_rest e
  exact h

/-- The state that an authorisation leaves: the nonce is used up. -/
theorem authorised_snd (s : State) (r : Nat) (f : List Byte) (n : Nat) :
    (s.authorised r f n).2 = s.setSess r { s.sess r with nonce := none } := by
  unfold State.authorised
  dsimp only
  split <;> rfl

theorem sess_setSess (s : State) (r : Nat) (x : SessSt) : (s.setSess r x).sess r = x := tabGet_tabPut_same _ _ _ _

/-- A store whose LOG has no entry to program leaves LOG as it is. -/
theorem flushLog_empty (s : State) (h1 : s.store.logs = []) (h2 : s.store.logFirst = 0) (h3 : s.store.logBlks = [])
    (h4 : s.store.logPages = 0) : s.flushLog = s := by
  obtain ⟨⟩ := s
  rename_i store _ _ _
  obtain ⟨⟩ := store
  dsimp only at h1 h2 h3 h4
  subst h1 h2 h3 h4
  unfold State.flushLog
  simp [State.programPages, State.releaseBlks]

/-- With the ranges, the room and the image in order, the other tests decide (R614). -/
theorem loadTests_eq (s : State) (b body : List Byte) (h1 : s.loadRanges b = true)
    (h2 : decide (s.gddrEnd ≤ 64 * (parseLoad b).loadBase) = false) (h3 : s.loadImage (parseLoad b) = (0, body)) :
    s.loadTests b = s.loadChecks (parseLoad b) body := by
  unfold State.loadTests
  simp only [h1, h2, h3, Bool.not_true, Bool.false_or, Bool.false_eq_true, if_false]

end Sys2Proof.Laws
end

