-- ==== Sys2Proof/Laws/Memory.lean ====
section
/-! SUPPORT. Every operation on a memory keeps its canonical form, and leaves the other memories as they are; the memories of the reset
state have the form. -/

namespace Sys2Proof.Laws

open Sys2Proof Sys2Proof.Machine Sys2Proof.Machine.State

theorem tabWfFrom_filter {α : Type} [DecidableEq α] (d : Nat → α) (p : Nat × α → Bool) (t : Tab α) (lo : Nat)
    (w : tabWfFrom d lo t = true) : tabWfFrom d lo (t.filter p) = true := by
  induction t generalizing lo with
  | nil => rfl
  | cons e t ih =>
    simp only [tabWfFrom, Bool.and_eq_true, decide_eq_true_eq] at w
    rw [List.filter_cons]
    split
    · simp [tabWfFrom, w.1.1, w.1.2, ih _ w.2]
    · exact tabWfFrom_mono d (by omega) _ (ih _ w.2)

/-- Taking cells out (a scrub, a lost memory) keeps the canonical form. -/
theorem wf_filter (p : Host.Cell → Bool) (m : List Host.Cell) (w : Memory.wf m = true) : Memory.wf (m.filter p) = true :=
  tabWfFrom_filter _ p m 0 w

/-- The memories after reset are canonical. -/
theorem wf_reset : Memory.wf State.reset.host = true ∧ Memory.wf State.reset.gddr = true ∧ Memory.wf State.reset.stripe = true ∧
    Memory.wf State.reset.spad = true := ⟨rfl, rfl, rfl, rfl⟩

/-! ### The writes of one memory -/

theorem wf_hostWr (s : State) (a : Nat) (bs : List Byte) (w : Memory.wf s.host = true) : Memory.wf (s.hostWr a bs).host = true :=
  wf_memWrite bs s.host a w
theorem wf_stripeWr (s : State) (a : Nat) (bs : List Byte) (w : Memory.wf s.stripe = true) : Memory.wf (s.stripeWr a bs).stripe = true :=
  wf_memWrite bs s.stripe a w
theorem wf_spadWr (s : State) (n a : Nat) (bs : List Byte) (w : Memory.wf s.spad = true) : Memory.wf (s.spadWr n a bs).spad = true :=
  wf_memWrite bs s.spad _ w
theorem wf_sealPut (s : State) (n a : Nat) (b : Byte) (w : Memory.wf s.gddr = true) : Memory.wf (s.sealPut n a b).gddr = true := by
  unfold State.sealPut
  dsimp only
  generalize xtsBlock _ _ _ _ _ = ct
  exact wf_memWrite ct s.gddr _ w

/-- A change of `gddr` alone, which keeps its canonical form. -/
abbrev GddrOnly (s t : State) : Prop := ∃ m, t = { s with gddr := m } ∧ (Memory.wf s.gddr = true → Memory.wf m = true)

theorem gddrOnly_foldl {α : Type} (f : State → α → State) (h : ∀ s x, GddrOnly s (f s x)) (l : List α) (s : State) :
    GddrOnly s (l.foldl f s) := by
  induction l generalizing s with
  | nil => exact ⟨s.gddr, rfl, id⟩
  | cons x l ih =>
    obtain ⟨m, e, w⟩ := h s x
    obtain ⟨m', e', w'⟩ := ih (f s x)
    rw [List.foldl_cons, e']
    rw [e] at w' ⊢
    exact ⟨m', rfl, fun h => w' (w h)⟩

theorem gddrOnly_sealPut (s : State) (n a : Nat) (b : Byte) : GddrOnly s (s.sealPut n a b) := by
  unfold State.sealPut
  dsimp only
  generalize xtsBlock _ _ _ _ _ = ct
  exact ⟨_, rfl, wf_memWrite ct s.gddr _⟩

/-- A write of the GDDR6 space, sealed or not, changes `gddr` alone. -/
theorem gddrWr_eq (s : State) (a : Nat) (bs : List Byte) : GddrOnly s (s.gddrWr a bs) := by
  unfold State.gddrWr
  split
  · exact ⟨_, rfl, wf_memWrite bs s.gddr a⟩
  · apply gddrOnly_foldl
    intro s p
    split
    · exact gddrOnly_sealPut s _ _ _
    · exact ⟨_, rfl, wf_memPut s.gddr p.2 p.1⟩

theorem wf_gddrWr (s : State) (a : Nat) (bs : List Byte) (w : Memory.wf s.gddr = true) : Memory.wf (s.gddrWr a bs).gddr = true := by
  obtain ⟨m, e, h⟩ := gddrWr_eq s a bs
  rw [e]; exact h w

/-! ### Counting leaves the memories -/

/-- The four memories of a state. -/
abbrev mems (s : State) : List Host.Cell × List Host.Cell × List Host.Cell × List Host.Cell := (s.host, s.gddr, s.stripe, s.spad)

theorem mems_of_rest {s t : State} (h : Safety.rest s = Safety.rest t) : mems s = mems t := by
  have a : (Safety.rest s).host = (Safety.rest t).host := by rw [h]
  have b : (Safety.rest s).gddr = (Safety.rest t).gddr := by rw [h]
  have c : (Safety.rest s).stripe = (Safety.rest t).stripe := by rw [h]
  have d : (Safety.rest s).spad = (Safety.rest t).spad := by rw [h]
  simp only [Safety.rest] at a b c d
  simp only [mems, a, b, c, d]

@[simp] theorem mems_countEvt (s : State) (p e n : Nat) : mems (s.countEvt p e n) = mems s := mems_of_rest (rest_countEvt s p e n)
@[simp] theorem mems_countBw (s : State) (port n : Nat) : mems (s.countBw port n) = mems s := by
  obtain ⟨t, e⟩ := countBw_eq s port n
  rw [e]

theorem mems_foldl {α : Type} (f : State → α → State) (h : ∀ s x, mems (f s x) = mems s) (l : List α) (s : State) :
    mems (l.foldl f s) = mems s := by
  induction l generalizing s with
  | nil => rfl
  | cons x l ih => rw [List.foldl_cons, ih, h]

@[simp] theorem mems_gdCount (s : State) (a n : Nat) (write : Bool) : mems (s.gdCount a n write) = mems s := by
  unfold State.gdCount
  dsimp only
  split
  · rw [mems_foldl _ (fun s x => mems_countEvt s _ _ _), mems_foldl _ (fun s x => by rw [mems_countEvt, mems_countBw])]
  · rw [mems_foldl _ (fun s x => by rw [mems_countEvt, mems_countBw])]

/-- A write by an agent of the device changes `gddr` as `gddrWr` does, and no other memory. -/
theorem mems_gdWr (s : State) (a : Nat) (bs : List Byte) : mems (s.gdWr a bs) = (s.host, (s.gddrWr a bs).gddr, s.stripe, s.spad) := by
  unfold State.gdWr
  rw [mems_gdCount]
  obtain ⟨m, e, -⟩ := gddrWr_eq s a bs
  rw [e]

theorem wf_gdWr (s : State) (a : Nat) (bs : List Byte) (w : Memory.wf s.gddr = true) : Memory.wf (s.gdWr a bs).gddr = true := by
  have e : (s.gdWr a bs).gddr = (s.gddrWr a bs).gddr := congrArg (fun m => m.2.1) (mems_gdWr s a bs)
  rw [e]; exact wf_gddrWr s a bs w

/-- A write over the host's path keeps the canonical form, whatever of it a closed region drops. -/
theorem wf_gddrWrPath (s : State) (host : Bool) (a : Nat) (bs : List Byte) (w : Memory.wf s.gddr = true) :
    Memory.wf (s.gddrWrPath host a bs).gddr = true := by
  unfold State.gddrWrPath
  split
  · obtain ⟨m, e, h⟩ := gddrOnly_foldl (fun s (p : Byte × Nat) => if s.hostSealed p.2 then s else s.gddrWr p.2 [p.1])
      (fun s p => by split <;> [exact ⟨s.gddr, rfl, id⟩; exact gddrWr_eq s _ _]) (bs.zipIdx a) s
    rw [show ∀ t : State, ∀ f : Fld, (t.satF mxCommonPage f).gddr = t.gddr from fun _ _ => rfl, e]
    exact h w
  · exact wf_gdWr s a bs w

theorem wf_pcieWr (s : State) (a : Nat) (bs : List Byte) (w : Memory.wf s.host = true) : Memory.wf (s.pcieWr a bs).host = true := by
  have e : (s.pcieWr a bs).host = (s.hostWr a bs).host := by
    have h : mems (s.pcieWr a bs) = mems (s.hostWr a bs) := by unfold State.pcieWr; rw [mems_countEvt, mems_countBw]
    exact congrArg (fun m => m.1) h
  rw [e]; exact wf_hostWr s a bs w

/-- The scrub of a job's stripe memory keeps the canonical form. -/
theorem wf_scrubStripes (s : State) (ks : List Nat) (w : Memory.wf s.stripe = true) : Memory.wf (s.scrubStripes ks).stripe = true :=
  wf_filter _ _ w

end Sys2Proof.Laws
end

