-- ==== Sys2Proof/Tests/Slice0.lean ====
section
/-! SUPPORT. Tests: for every statement a concrete state and operands that meet its hypotheses, at the bounds where it has some; terms
that WellFormed refuses; and results of commands, worked out by hand from the spec. -/

namespace Sys2Proof.Tests

open Sys2Proof.Machine Sys2Proof.Machine.State Sys2Proof.Laws

-- the theorems of this file are checked one after the other: each evaluates much
set_option Elab.async false

/-- The machine after READY was reached, every register at reset. -/
def up : State := { State.reset with readyReached := true }
/-- The state that exec answers; the state itself where it answers none. -/
def after (c : Instr) (s : State) : State := match exec c s with | .next t => t | _ => s
/-- A page enabled. -/
def on (s : State) (page : Nat) : State := s.setF page PG_CTRL_enable 1
/-- A plan block with one piste, and a job on domain D under it. -/
def sampleBlock : PlanBlock :=
  { domains := 1, rerunEn := false, rerunMax := 0, skew := 0, period := 1000, cropMax := 0, plans := [], pistes := [⟨0, 0, 0, 1, 1⟩]
    markers := [], crops := [] }
def sampleJob : JobSt :=
  { index := 0, owner := 0, domains := [3], fahead := 1, loadBase := 0, progBase := 0, img0 := (0, 64, 64), blk := sampleBlock
    hasReplica := false, adapt := none, bind := [3], nextSet := 0, sets := [], planStart := 0, lfsr := 1, spotPick := 0
    switch := none, seen := [], started := [], reports := [], emits := [], stopping := false, stopRings := [], digest := [] }

/-- The hypotheses of StepRunsFrontCommand are met, at the bounds of their ranges. -/
theorem test_witness_StepRunsFrontCommand :
    ({ up with pending := [.linkDown] } : State).pending = .linkDown :: [] :=
  by decide +kernel

/-- The hypotheses of IdleStepIsOneTimebaseCycle are met, at the bounds of their ranges. -/
theorem test_witness_IdleStepIsOneTimebaseCycle :
    up.pending = [] :=
  by decide +kernel

/-- The hypotheses of ResetEnables are met, at the bounds of their ranges. -/
theorem test_witness_ResetEnables :
    pageInfo (pxVr 31) = some (.pxVr, 31) ∧ pageInfo (cr 127) = some (.cr, 127) :=
  by decide +kernel

/-- The hypotheses of EveryStepSettlesTheVectors are met, at the bounds of their ranges. -/
theorem test_witness_EveryStepSettlesTheVectors :
    Safety.Settled (match step up with | .next t => t | _ => up) :=
  by unfold Safety.Settled; decide +kernel

/-- The hypotheses of EveryCommandAnswers are met, at the bounds of their ranges. -/
theorem test_witness_EveryCommandAnswers :
    Safety.beyondBar (.registerRead .host .bar0 0x3FFFFFC 4) up = false ∧
    Safety.beyondBar (.registerRead .host .bar0 0x4000000 4) up = true ∧
    Safety.beyondBar (.bar2Access false (2 ^ 28 - 4) [] 4 false) up = false ∧
    Safety.beyondBar (.bar2Access false (2 ^ 28 - 4) [] 5 false) up = true :=
  by decide +kernel

def halt : State :=
  up.setF dvPage DV_BOOT_stage 5

/-- The hypotheses of HaltedDeviceDoesNothingOfItsOwn are met, at the bounds of their ranges. -/
theorem test_witness_HaltedDeviceDoesNothingOfItsOwn :
    halt.halted = true ∧ Safety.own (.markerDue 0) = true :=
  by decide +kernel

def irq : State :=
  (on up (dmCh 15)).setWord (dmCh 15 + 0x14) 0xC0000001

/-- The hypotheses of IrqStatusClears are met, at the bounds of their ranges. -/
theorem test_witness_IrqStatusClears :
    Safety.Admitted irq .host (dmCh 15) 0x14 :=
  by unfold Safety.Admitted; decide +kernel

/-- The hypotheses of SetWinsOverClear are met, at the bounds of their ranges. -/
theorem test_witness_SetWinsOverClear :
    Safety.Admitted irq .puppeteer (dmCh 15) 0x14 ∧ 31 < 32 ∧ bit (0x80000000 : Word).toNat 31 = true ∧
    bit (0x80000001 : Word).toNat 31 = true :=
  by unfold Safety.Admitted; decide +kernel

def errs : State :=
  (up.setF pwPage PG_ERR_CNT_count 65535).setF pwPage PG_ERR_CNT_last_cause 3

/-- The hypotheses of ClearBeforeIncrement are met, at the bounds of their ranges. -/
theorem test_witness_ClearBeforeIncrement :
    Safety.Admitted errs .host pwPage 0x20 ∧ 1 ≤ (1 : BitVec 8).toNat ∧ (8 : BitVec 8).toNat ≤ 8 :=
  by unfold Safety.Admitted; decide +kernel

/-- The hypotheses of HeaderWrites are met, at the bounds of their ranges. -/
theorem test_witness_HeaderWrites :
    Safety.Admitted irq .host (dmCh 15) 0x18 ∧ Safety.Admitted up .host pwPage 0x1C ∧ pageInfo pwPage = some (.pw, 0) ∧
    countsEvents .pw = false ∧ Safety.Admitted errs .puppeteer pwPage 0x20 :=
  by unfold Safety.Admitted; decide +kernel

def locked : State :=
  ({ up with woDone := [pwPage + 0x28] } : State).setWord (pwPage + 0x28) 0x101

/-- The hypotheses of PageLocks are met, at the bounds of their ranges. -/
theorem test_witness_PageLocks :
    Safety.Admitted up .host pwPage 0x28 ∧ up.woDone.contains (pwPage + 0x28) = false ∧
    Safety.Admitted locked .puppeteer pwPage 0x28 ∧ locked.woDone.contains (pwPage + 0x28) = true ∧ locked.hostWaits = false ∧
    locked.answers pwPage = true ∧ locked.resetBusy pwPage = false ∧ locked.clkOff pwPage = false ∧ pwPage + 0x208 < 2 ^ 26 ∧
    0x208 < 0xF00 ∧ 0x208 % 4 = 0 ∧ 0x208 ∉ ([0x14, 0x18, 0x20, 0x2C] : List Nat) ∧ pageInfo pwPage = some (.pw, 0) ∧
    capWord pwPage .pw 0x208 = none ∧ (regRow .pw 0x208).any lockGuards = true ∧
    locked.hostReadBars .host pwPage 0x208 true = false ∧ locked.flag pwPage PG_LOCK_lock = true :=
  by unfold Safety.Admitted; decide +kernel

/-- The hypotheses of ScratchReadsBack are met, at the bounds of their ranges. -/
theorem test_witness_ScratchReadsBack :
    Safety.Admitted irq .host (dmCh 15) 0x2C ∧ dmCh 15 + 0x2C < 2 ^ 26 :=
  by unfold Safety.Admitted; decide +kernel

/-- The hypotheses of UnansweredAccess are met, at the bounds of their ranges. -/
theorem test_witness_UnansweredAccess :
    0x3FFFFFF < 2 ^ 26 ∧ (Agent.host == .host && up.hostWaits) = false ∧ up.answers (0x3FFFFFF / 0x1000 * 0x1000) = false ∧
    (inDebug (0x3FFFFFF / 4 * 4) = true → up.debugAdmits (debugRink (0x3FFFFFF / 4 * 4)) = false) :=
  by decide +kernel

def port : State :=
  ((on up (fePort 7)).setWord (fePort 7 + 0x2C) 77).setWord (fePort 7 + 0x24) 5

/-- The hypotheses of SoftResetKeeps are met, at the bounds of their ranges. -/
theorem test_witness_SoftResetKeeps :
    Safety.Admitted port .host (fePort 7) 0xC ∧ pageInfo (fePort 7) = some (.fePort, 7) ∧
    Kind.fePort ∈ ([.fePort, .mxCh, .wnTab, .clRink, .clCore, .rk, .cr, .gd, .wn, .mxCommon] : List Kind) ∧
    softKeeps .fePort 0x40 = false :=
  by unfold Safety.Admitted; decide +kernel

def pend : State :=
  { up with link := { up.link with pba := 2 ^ 127, up := true } }

/-- The hypotheses of VectorUnmaskSends are met, at the bounds of their ranges. -/
theorem test_witness_VectorUnmaskSends :
    pend.hostWaits = false ∧ pend.readyReached = true ∧ bit pend.link.pba (127 : Fin 128) = true ∧ pend.link.up = true ∧
    bit pend.link.pba (0 : Fin 128) = false :=
  by decide +kernel

def busy : State :=
  (up.setJob 3 (some sampleJob)).setF ppMbPage PP_MB_STAT_bound 8

/-- The hypotheses of TimebaseLoad are met, at the bounds of their ranges. -/
theorem test_witness_TimebaseLoad :
    Safety.Admitted up .host tbPage 0x54 ∧ up.jobBound = false ∧ Safety.Admitted busy .host tbPage 0x54 ∧ busy.jobBound = true :=
  by unfold Safety.Admitted; decide +kernel

def acq : State :=
  (({ up with time := { up.time with elapsed := 1500000000 * 2 ^ 32 } } : State).setF tbPage TB_CTRL_pps_en 1).setF tbPage TB_STAT_state 1

def edged : State :=
  ({ acq with time := { acq.time with ppsLast := some (501000001 * 2 ^ 32) } } : State)

/-- The hypotheses of PpsServo are met, at the bounds of their ranges. -/
theorem test_witness_PpsServo :
    Safety.Admitted up .host tbPage 0x40 ∧ up.getF tbPage TB_STAT_state = 0 ∧ acq.halted = false ∧
    acq.getF tbPage TB_STAT_state = 1 ∧ 1500000000 * 2 ^ 32 ≤ acq.time.elapsed - acq.time.ppsSince ∧
    acq.flag tbPage TB_CTRL_pps_en = true ∧ acq.flag tbPage TB_CTRL_pps_fall = false ∧
    edged.time.elapsed - 501000001 * 2 ^ 32 < 999000000 * 2 ^ 32 ∧ edged.time.ppsLast = some (501000001 * 2 ^ 32) ∧
    999000000 * 2 ^ 32 ≤ edged.time.elapsed - 501000000 * 2 ^ 32 :=
  by unfold Safety.Admitted; decide +kernel

def enc : State :=
  (up.setF tbPage TB_ENCn_CFG_en 1 3).setF tbPage TB_ENCn_POS_pos 0xFFFFFFFF 3

/-- The hypotheses of EncoderEdges are met, at the bounds of their ranges. -/
theorem test_witness_EncoderEdges :
    enc.halted = false ∧ enc.flag tbPage TB_ENCn_CFG_en 3 = true ∧ bit enc.time.encLevels 6 = false ∧
    bit enc.time.encLevels 7 = false ∧ enc.flag tbPage TB_ENCn_CFG_en 0 = false ∧
    Safety.Admitted enc .host tbPage (0x84 + 0x10 * (3 : Fin 4)) :=
  by unfold Safety.Admitted; decide +kernel

def mk : State :=
  (up.setF tbPage TB_MKm_CFG_en 1 15).setF tbPage TB_MKm_CFG_width_us 7 15

def mkLate : State :=
  { ((mk.setF tbPage TB_MKm_LATE_late_us 1 15).setF tbPage TB_MKm_TGT_LO_tgt_lo 5000 15) with time := { mk.time with now := 6000 * 2 ^ 32, elapsed := 6000 * 2 ^ 32 } }

def mkSoon : State :=
  (mk.setF tbPage TB_MKm_TGT_LO_tgt_lo 5000 15)

def mkTooLate : State :=
  { mkLate with time := { mkLate.time with now := 6001 * 2 ^ 32 } }

def mkOn : State :=
  mkLate.setMarker 15 { mkLate.marker 15 with queue := [⟨false, 5000⟩, ⟨false, 5001⟩, ⟨false, 9000⟩], activeEnd := some (6000 * 2 ^ 32) }

/-- The hypotheses of MarkersAndPins are met, at the bounds of their ranges. -/
theorem test_witness_MarkersAndPins :
    Safety.Admitted up .host tbPage (0x110 + 0x20 * (15 : Fin 16)) ∧ up.flag tbPage TB_MKm_CFG_en 15 = false ∧
    mk.flag tbPage TB_MKm_CFG_en 15 = true ∧ (mk.marker 15).queue.length < 16 ∧ mkSoon.lateness 15 ⟨false, 5000⟩ = none ∧
    mkLate.lateness 15 ⟨false, 5000⟩ = some 1000 ∧ 1000 ≤ mkLate.getF tbPage TB_MKm_LATE_late_us 15 * 1000 ∧
    mkTooLate.lateness 15 ⟨false, 5000⟩ = some 1001 ∧ mkOn.halted = false ∧ (mkOn.marker 15).activeEnd = some (6000 * 2 ^ 32) ∧
    6000 * 2 ^ 32 ≤ mkOn.time.elapsed ∧ bit (up.getF tbPage TB_GPIO_IN_in) 15 ≠ true :=
  by unfold Safety.Admitted; decide +kernel

/-- The hypotheses of MarkerPulses are met, at the bounds of their ranges. -/
theorem test_witness_MarkerPulses :
    mkOn.halted = false ∧ (mkOn.marker 15).queue.filter (fun r => (mkOn.lateness 15 r).isSome) ≠ [] ∧
    (mkOn.marker 15).activeEnd.isSome = true ∧ (mkOn.marker 14).activeEnd.isSome = false :=
  by decide +kernel

def deep4 : State :=
  (up.setF pwPage PW_PS_STAT_state 4)

def deep2 : State :=
  (up.setF pwPage PW_PS_STAT_state 2)

def entering : State :=
  ((up.setF pwPage PW_PS_STAT_state 6).setF pwPage PW_PS_STAT_target 5)

def entering2 : State :=
  ((up.setF pwPage PW_PS_STAT_state 6).setF pwPage PW_PS_STAT_target 2)

def leaving : State :=
  ((up.setF pwPage PW_PS_STAT_state 7).setF pwPage PW_PS_STAT_target 4)

def alarmed : State :=
  (up.setF pwPage PW_WAKE_alarm 1)

def alarmed5 : State :=
  (alarmed.setF pwPage PW_PS_STAT_state 5)

def alarmed6 : State :=
  (alarmed.setF pwPage PW_PS_STAT_state 6)

def rested : State :=
  { up with time := { up.time with elapsed := 1000 * 2 ^ 32 } }

def noDev : State :=
  ((deep2.setWord (pwPage + 0xC) 0x1D).setJob 0 (some sampleJob))

/-- The hypotheses of PowerStateRequests are met, at the bounds of their ranges. -/
theorem test_witness_PowerStateRequests :
    Safety.Admitted up .host pwPage 0x40 ∧ 2 ≤ bits (2 : Word).toNat 2 0 ∧ bits (4 : Word).toNat 2 0 ≤ 5 ∧ up.psState < 2 ∧
    up.psRefuse 2 = 0 ∧ up.psRefuse 4 = 0 ∧ Safety.Admitted noDev .host pwPage 0x40 ∧ 2 ≤ noDev.psState ∧ noDev.psState < 3 ∧
    noDev.psRefuse 3 ≠ 0 ∧ Safety.Admitted entering .host pwPage 0x40 ∧ entering.psState = 6 ∧
    Safety.Admitted leaving .host pwPage 0x40 ∧ leaving.psState = 7 :=
  by unfold Safety.Admitted; decide +kernel

/-- The hypotheses of PowerStateChanges are met, at the bounds of their ranges. -/
theorem test_witness_PowerStateChanges :
    entering.halted = false ∧ entering.psState = 6 ∧ entering.getF pwPage PW_PS_STAT_target = 5 ∧ entering2.psState = 6 ∧
    entering2.getF pwPage PW_PS_STAT_target = 2 ∧ leaving.halted = false ∧ leaving.psState = 7 ∧ leaving.power.wakeAt = none ∧
    leaving.power.heldReqs = [] ∧ leaving.getF pwPage PW_PS_STAT_target ∈ ([0, 2, 3, 4] : List Nat) ∧ alarmed5.halted = false ∧
    alarmed5.flag pwPage PW_WAKE_alarm = true ∧ alarmed5.get64 pwPage PW_ALARM_LO_ns_lo PW_ALARM_HI_ns_hi ≤ alarmed5.ns ∧
    alarmed5.psState = 5 ∧ alarmed6.psState = 6 ∧ alarmed.psState = 0 ∧ rested.psState = 0 ∧ rested.active = false ∧
    rested.power.idleSince + 1000 * 2 ^ 32 ≤ rested.time.elapsed :=
  by decide +kernel

/-- Every thermal sensor at a reading in 0.1 °C. -/
def allAt (s : State) (v : Int) : State := (List.range 24).foldl (fun s i => s.setF wxPage WX_MONk_value (ofSigned 16 v) i) s
/-- Throttling on: threshold 100 °C, hysteresis 5 °C, level at most 3. -/
def thr (level cool : Nat) : State :=
  let s := (((up.setF pwPage PW_THERM_throttle_en 1).setF pwPage PW_THERM_thr_c 100).setF pwPage PW_THERM_hyst_c 5).setF pwPage PW_THERM_max_level 3
  let s1 := s.setF ckPage CK_RINK_level level
  { s1 with power := { s1.power with coolCount := cool } }

/-- The hypotheses of Throttling are met, at the bounds of their ranges. -/
theorem test_witness_Throttling :
    up.halted = false ∧ (thr 2 0).flag pwPage PW_THERM_throttle_en = true ∧
    10 * ((thr 2 0).getF pwPage PW_THERM_thr_c : Int) ≤ (allAt (thr 2 0) 1000).hottest.1 ∧
    (thr 2 0).getF ckPage CK_RINK_level < (thr 2 0).getF pwPage PW_THERM_max_level ∧
    (thr 3 0).getF pwPage PW_THERM_max_level ≤ (thr 3 0).getF ckPage CK_RINK_level ∧
    (allAt (thr 3 9) 949).hottest.1 < 10 * (100 - 5) ∧ (thr 3 8).power.coolCount + 1 < 10 ∧ 10 ≤ (thr 3 9).power.coolCount + 1 ∧
    (up.setF pwPage PW_THERM_throttle_en 0).flag pwPage PW_THERM_throttle_en = false :=
  by decide +kernel

def rdy : State :=
  up.setF dvPage DV_BOOT_stage 4

def waking : State :=
  { rdy with power := { rdy.power with wakeAt := some 0, pwrOk := false }, time := { rdy.time with elapsed := 10000000 * 2 ^ 32 } }

/-- The hypotheses of DeviceHalts are met, at the bounds of their ranges. -/
theorem test_witness_DeviceHalts :
    rdy.stage = 4 ∧ rdy.link.heldReset = false ∧ rdy.getF dvPage DV_HALT_code = 0 ∧ (rdy.setF dvPage DV_BOOT_stage 3).stage = 3 ∧
    10 * ((allAt rdy 1250).getF pwPage PW_THERM_trip_c : Int) ≤ (allAt rdy 1250).hottest.1 ∧ 4 ≤ (4 : Fin 12).val ∧
    rdy.power.supplyEn = true ∧ rdy.power.pwrOk = true ∧ waking.power.wakeAt = some 0 ∧
    0 + 10000000 * 2 ^ 32 ≤ waking.time.elapsed ∧ waking.stage = 4 ∧ (11 : Fin 32).val < 12 :=
  by decide +kernel

/-- The hypotheses of ClockCommands are met, at the bounds of their ranges. -/
theorem test_witness_ClockCommands :
    up.halted = false ∧ stateRuns up.clockState 58 = true ∧ 39600 ≤ 40400 ∧ Safety.Admitted up .host ckPage 0x60 ∧
    bits (0x803B0FFF : Word).toNat 21 16 ≤ 59 ∧ domainMax 59 ≤ 20000 * (0xFFF + 1) ∧ 20000 * (0 + 1) < domainMax 7 ∧
    up.hostWaits = false :=
  by unfold Safety.Admitted; decide +kernel

def pc : State :=
  (on up pcPage).setF (cr 127) PC_CNTi_HI_cnt_hi 0xFFFF 7

def frozen : State :=
  (pc.setF pcPage PC_CTRL_frozen 1).setWord (pcPage + 0x4C) 7

def coll : State :=
  { pc with cnt := { pc.cnt with collect := some ⟨9, 0x1000, false, none⟩ } }

def collG : State :=
  { pc with cnt := { pc.cnt with collect := some ⟨9, 0x1000, true, none⟩ } }

/-- The hypotheses of FreezesSnapshotsAndCollections are met, at the bounds of their ranges. -/
theorem test_witness_FreezesSnapshotsAndCollections :
    Safety.Admitted pc .puppeteer pcPage 0x40 ∧ bits (0x0000FFFF : Word).toNat 31 28 = 0 ∧ pc.flag pcPage PC_CTRL_frozen = false ∧
    Safety.Admitted frozen .puppeteer pcPage 0x40 ∧ frozen.flag pcPage PC_CTRL_frozen = true ∧
    pageInfo (cr 127) = some (.cr, 127) ∧ countsEvents .cr = true ∧ pc.domLive (cr 127) = true ∧ pc.enabled pcPage = true ∧
    pc.cnt.collect = none ∧ coll.halted = false ∧ coll.cnt.collect = some ⟨9, 0x1000, false, none⟩ ∧
    collG.cnt.collect = some ⟨9, 0x1000, true, none⟩ ∧ collG.sealed = [] :=
  by unfold Safety.Admitted; decide +kernel

def held : State :=
  { pc with cnt := { pc.cnt with heldLo := [(cr 127 + 0xF20 + 8 * 7, 2 ^ 32)] } }

def full : State :=
  (((pc.setF (cr 127) PC_CNTi_LO_cnt_lo 0xFFFFFFFF 7).setF (cr 127) PC_SELi_en 1 7).setF (cr 127) PC_SELi_irq_en 1 7).setF (cr 127) PC_SELi_event 2 7

/-- The hypotheses of CounterLoadAndWrap are met, at the bounds of their ranges. -/
theorem test_witness_CounterLoadAndWrap :
    isCounting (cr 127) = true ∧ Safety.Admitted held .puppeteer (cr 127) (0xF24 + 8 * (7 : Fin 8)) ∧
    tabGet (fun _ => 0) held.cnt.heldLo (cr 127 + 0xF20 + 8 * 7) = (2 ^ 32 - 1) + 1 ∧
    Safety.Admitted pc .puppeteer (cr 127) (0xF24 + 8 * (7 : Fin 8)) ∧
    tabGet (fun _ => 0) pc.cnt.heldLo (cr 127 + 0xF20 + 8 * 7) = 0 ∧ full.halted = false ∧ pageInfo (cr 127) = some (.cr, 127) ∧
    countsEvents .cr = true ∧ full.domLive (cr 127) = true ∧ full.flag pcPage PC_CTRL_frozen = false ∧
    full.flag (cr 127) PC_SELi_en 7 = true ∧ full.getF (cr 127) PC_SELi_event 7 ≠ 0 ∧
    countsCycles .cr (full.getF (cr 127) PC_SELi_event 7) = false ∧ full.count48 (cr 127) 7 = 2 ^ 48 - 1 ∧
    full.flag (cr 127) PC_SELi_irq_en 7 = true :=
  by unfold Safety.Admitted; decide +kernel

def bw : State :=
  (({ pc with cnt := { pc.cnt with bwBytes := [(15, 6400)] }, time := { pc.time with elapsed := 5000 * 2 ^ 32 } } : State).setF pcPage PC_BW_CFGk_en 1 15).setF pcPage PC_BW_CFGk_window_us 5 15

/-- The hypotheses of BandwidthMonitors are met, at the bounds of their ranges. -/
theorem test_witness_BandwidthMonitors :
    Safety.Admitted pc .puppeteer pcPage (0x80 + 0x10 * (15 : Fin 16)) ∧ bw.halted = false ∧
    bw.flag pcPage PC_BW_CFGk_en 15 = true ∧
    tabGet (fun _ => 0) bw.cnt.bwStart 15 + bw.getF pcPage PC_BW_CFGk_window_us 15 * 1000 * 2 ^ 32 ≤ bw.time.elapsed ∧
    tabGet (fun _ => 0) bw.cnt.bwBytes 15 / 64 < 2 ^ 32 :=
  by unfold Safety.Admitted; decide +kernel

def wax : State :=
  { (up.setF wxPage WX_CTRL_period_min 1) with wax := { up.wax with doneAt := some 0 }, time := { up.time with elapsed := 60 * (1000000000 * 2 ^ 32) } }

def waxDue : State :=
  { up with wax := { up.wax with due := true } }

def waxFar : State :=
  { (allAt (up.setF wxPage WX_CTRL_thr_c 5) 51) with wax := { up.wax with due := false } }

def waxRun : State :=
  up.setF wxPage WX_STAT_running 1

def waxWait : State :=
  { up with wax := { up.wax with newest := List.replicate 184 3, inForce := List.replicate 184 0, waiting := [7] } }

/-- The hypotheses of WaxCalibration are met, at the bounds of their ranges. -/
theorem test_witness_WaxCalibration :
    wax.flag wxPage WX_STAT_running = false ∧ wax.adcRuns = true ∧ Safety.Admitted wax .host wxPage 0x40 ∧ wax.halted = false ∧
    wax.wax.doneAt = some 0 ∧ wax.getF wxPage WX_CTRL_period_min ≠ 0 ∧
    0 + wax.getF wxPage WX_CTRL_period_min * 60 * (1000000000 * 2 ^ 32) ≤ wax.time.elapsed ∧ waxDue.wax.due = true ∧
    waxDue.psState = 0 ∧ waxFar.wax.due = false ∧ waxFar.getF wxPage WX_CTRL_thr_c ≠ 0 ∧
    10 * waxFar.getF wxPage WX_CTRL_thr_c < (waxFar.hottest.1 - toSigned 16 (waxFar.getF wxPage WX_LAST_TJ_tj)).natAbs ∧
    waxRun.halted = false ∧ waxRun.flag wxPage WX_STAT_running = true ∧ (List.replicate 64 (0 : Int)).length = 64 ∧
    waxWait.wax.waiting.contains 7 = true ∧ waxWait.wax.inForce.length = 184 ∧ waxWait.getF (mxCh 7) MX_CH_STAT_state = 0 :=
  by unfold Safety.Admitted; decide +kernel

/-- Ring r with one frame of command `op` of session `sid` (0xFF: none) with this body: session r open with every right, the link up. -/
def ringed (s : State) (r sid op : Nat) (body : List Byte) : State :=
  let p := pxCmd r
  let key := List.replicate 32 7
  let hdr := leBytes 2 op ++ leBytes 2 body.length ++ leBytes 1 sid ++ zeros 3 ++ leBytes 8 1
  let tag := if sid = 0xFF then zeros 16 else (hmac key (hdr ++ body)).take 16
  let s1 := ((s.setF p PX_CR_CFG_en 1).setF p PX_CR_CFG_sq_log2 2).setF p PX_CR_CFG_cq_log2 2
  let s2 := ((s1.setF p PX_SQ_BASE_LO_addr_lo 0x10000).setF p PX_CQ_BASE_LO_addr_lo 0x20000).setF p PX_SQ_TAIL_tail 1
  let s3 := ((s2.setF (ppSess r) PP_SESS_STAT_state 2).setF (ppSess r) PP_SESS_STAT_rights 63).setSess r { s2.sess r with key := key }
  { s3 with host := memWrite s.host 0x10000 (hdr ++ tag ++ body), link := { s3.link with up := true } }
/-- The state and frame once the Puppeteer has taken it. -/
def taken (s : State) (r op : Nat) : State × List Byte := (Safety.accepted s r op).getD (s, [])

/-- The frame that `ringed` puts in ring 7 for session 7, and the state once the Puppeteer has taken it. -/
def sentFrame (op : Nat) (body : List Byte) : List Byte :=
  let hdr := leBytes 2 op ++ leBytes 2 body.length ++ leBytes 1 7 ++ zeros 3 ++ leBytes 8 1
  hdr ++ (hmac (List.replicate 32 7) (hdr ++ body)).take 16 ++ body
def sentU (s : State) (op : Nat) (body : List Byte) : State :=
  ((ringed s 7 7 op body).set64 (ppSess 7) PP_SESS_SEQ_LO_seq_lo PP_SESS_SEQ_HI_seq_hi 1).takeFrame 7 (sentFrame op body)
    (((ringed s 7 7 op body).sess 7).key)

theorem sentFrame_hdr (op : Nat) (body : List Byte) (o n : Nat) (h : o + n ≤ 16) : sub (sentFrame op body) o n =
    sub (leBytes 2 op ++ leBytes 2 body.length ++ leBytes 1 7 ++ zeros 3 ++ leBytes 8 1) o n := by
  unfold sentFrame
  dsimp only
  rw [List.append_assoc]
  exact sub_append_left _ _ _ _ (by simpa using h)

theorem sentFrame_body (op : Nat) (body : List Byte) : frameBody (sentFrame op body) = body := by
  unfold sentFrame frameBody
  exact List.drop_left' (by simp)

theorem sentFrame_length (op : Nat) (body : List Byte) : (sentFrame op body).length = body.length + 32 := by
  unfold sentFrame
  simp only [List.length_append, List.length_take, hmac_length, leBytes_length, zeros_length]
  omega

theorem ringed_host (s : State) (op : Nat) (body : List Byte) :
    (ringed s 7 7 op body).host = memWrite s.host 0x10000 (sentFrame op body) := by
  unfold ringed sentFrame
  dsimp only
  rw [if_neg (by decide)]
theorem ringed_time (s : State) (op : Nat) (body : List Byte) : (ringed s 7 7 op body).time = s.time := by
  unfold ringed; dsimp only [State.setSess, State.setF, State.setWord]
theorem ringed_store (s : State) (op : Nat) (body : List Byte) : (ringed s 7 7 op body).store = s.store := by
  unfold ringed; dsimp only [State.setSess, State.setF, State.setWord]
/-- What of the security complex a frame leaves. -/
theorem ringed_sec (s : State) (op : Nat) (body : List Byte) :
    { (ringed s 7 7 op body).sec with sess := s.sec.sess } = s.sec := by
  unfold ringed; dsimp only [State.setSess, State.setF, State.setWord]

theorem sentFrame_field (op : Nat) (body : List Byte) (o n v : Nat) (h : o + n ≤ 16) (hv : v < 256 ^ n)
    (e : ∀ m, m = body.length → sub (leBytes 2 op ++ leBytes 2 m ++ leBytes 1 7 ++ zeros 3 ++ leBytes 8 1) o n = leBytes n v) :
    le (sentFrame op body) o n = v := by
  rw [le, sentFrame_hdr op body o n h, e _ rfl, leNat_leBytes, Nat.mod_eq_of_lt hv]
theorem sentFrame_len (op : Nat) (body : List Byte) (hl : body.length ≤ 4064) : le (sentFrame op body) 2 2 = body.length :=
  sentFrame_field op body 2 2 _ (by decide) (by simp; omega) (fun m h => by subst h; generalize body.length = m; rfl)
theorem sentFrame_op (op : Nat) (body : List Byte) (h : op < 2 ^ 16) : frameOp (sentFrame op body) = op :=
  sentFrame_field op body 0 2 op (by decide) h (fun _ _ => rfl)

theorem sentU_sec (s : State) (op : Nat) (body : List Byte) : (sentU s op body).sec = (ringed s 7 7 op body).sec := by
  have h (t : State) (f k : List Byte) : ((t.set64 (ppSess 7) PP_SESS_SEQ_LO_seq_lo PP_SESS_SEQ_HI_seq_hi 1).takeFrame 7 f k).sec = t.sec := by
    rw [takeFrame_sec]; rfl
  exact h _ _ _
theorem sentU_time (s : State) (op : Nat) (body : List Byte) : (sentU s op body).time = s.time := by
  have h (t : State) (f k : List Byte) : ((t.set64 (ppSess 7) PP_SESS_SEQ_LO_seq_lo PP_SESS_SEQ_HI_seq_hi 1).takeFrame 7 f k).time = t.time := by
    rw [takeFrame_time]; rfl
  exact (h _ _ _).trans (ringed_time s op body)
theorem sentU_store (s : State) (op : Nat) (body : List Byte) : (sentU s op body).store = s.store := by
  have h (t : State) (f k : List Byte) : ((t.set64 (ppSess 7) PP_SESS_SEQ_LO_seq_lo PP_SESS_SEQ_HI_seq_hi 1).takeFrame 7 f k).store = t.store := by
    rw [takeFrame_store]; rfl
  exact (h _ _ _).trans (ringed_store s op body)

/-- Ring 7 may be served, and session 7 is open with every right. -/
def Served (t : State) : Prop :=
  (!t.flag (pxCmd 7) PX_CR_CFG_en || t.getF (pxCmd 7) PX_SQ_HEAD_head == t.getF (pxCmd 7) PX_SQ_TAIL_tail || !t.link.up ||
    t.cqFree 7 == 0 || t.link.held.any (fun x => x.ring == 7)) = false ∧
  t.get64 (pxCmd 7) PX_SQ_BASE_LO_addr_lo PX_SQ_BASE_HI_addr_hi / 4096 * 4096 +
    t.getF (pxCmd 7) PX_SQ_HEAD_head % 2 ^ t.getF (pxCmd 7) PX_CR_CFG_sq_log2 * 4096 = 0x10000 ∧
  t.sessState 7 = 2 ∧ t.get64 (ppSess 7) PP_SESS_SEQ_LO_seq_lo PP_SESS_SEQ_HI_seq_hi = 0 ∧
  t.getF (ppSess 7) PP_SESS_STAT_rights = 63 ∧ (t.sess 7).key = List.replicate 32 7

/-- Then the frame is accepted. -/
theorem sent_accepted (s : State) (op : Nat) (body : List Byte) (served : Served (ringed s 7 7 op body))
    (hop : op < 2 ^ 16 ∧ opKnown op = true ∧ (opRight op).all (bit 63) = true) (hl : body.length ≤ 4064) :
    Safety.accepted (ringed s 7 7 op body) 7 op = some (sentU s op body, sentFrame op body) := by
  obtain ⟨open', slot, h1, h2, h3, h4⟩ := served
  have hlen := sentFrame_len op body hl
  have hown : frameSess (sentFrame op body) = 7 := sentFrame_field op body 4 1 7 (by decide) (by decide) (fun _ _ => rfl)
  have hopf := sentFrame_op op body hop.1
  have hseq : frameSeq (sentFrame op body) = 1 := sentFrame_field op body 8 8 1 (by decide) (by decide) (fun _ _ => rfl)
  have hzero : le (sentFrame op body) 5 1 = 0 := sentFrame_field op body 5 1 0 (by decide) (by decide) (fun _ _ => rfl)
  have frame := frameAt_eq (ringed s 7 7 op body) 7 0x10000 s.host (sentFrame op body) open' slot (ringed_host s op body)
    (by rw [hlen, sentFrame_length]; omega)
  have tag : sub (sentFrame op body) 16 16 =
      (hmac ((ringed s 7 7 op body).sess 7).key ((sentFrame op body).take 16 ++ frameBody (sentFrame op body))).take 16 := by
    rw [h4, sentFrame_body]
    unfold sentFrame
    dsimp only
    rw [List.append_assoc]
    rw [List.take_left' (by simp)]
    generalize hh : leBytes 2 op ++ leBytes 2 body.length ++ leBytes 1 7 ++ zeros 3 ++ leBytes 8 1 = hdr
    have l1 : hdr.length = 16 := by rw [← hh]; simp
    generalize ht : (hmac (List.replicate 32 7) (hdr ++ body)).take 16 = tag
    have l2 : tag.length = 16 := by rw [← ht]; simp
    have e := sub_append_piece hdr tag body
    rwa [l1, l2] at e
  have test := frameTest_eq (ringed s 7 7 op body) 7 (sentFrame op body) (by decide) hown h1 (by omega) hzero tag (by rw [h2, hseq]; decide)
    (by rw [hopf]; exact hop.2.1) (by rw [hopf, h3]; exact hop.2.2)
  have := accepted_eq (ringed s 7 7 op body) 7 op (sentFrame op body) (by decide) frame hown hopf test
  rw [hseq] at this
  unfold sentU
  exact this

def owned : State :=
  { up with sec := { up.sec with slots := [.empty, .empty, .empty], sess := [], idPub := [] } }

def installs : State :=
  ringed owned 7 0xFF 0x61 ([2, 63, 0, 0, 0] ++ zeros 92)

/-- The hypotheses of OwnerCommands are met, at the bounds of their ranges. -/
theorem test_witness_OwnerCommands :
    installs.halted = false ∧ (Safety.accepted installs 7 0x61).isSome = true ∧ (taken installs 7 0x61).1.anyOwner = false ∧
    97 ≤ (frameBody (taken installs 7 0x61).2).length ∧
    le (frameBody (taken installs 7 0x61).2) 0 1 < (taken installs 7 0x61).1.sec.slots.length ∧
    le (frameBody (taken installs 7 0x61).2) 0 1 ≤ 2 ∧ ((taken installs 7 0x61).1.owner 2).state = 0 :=
  by decide +kernel

def nonced : State :=
  ringed owned 7 7 0x60 []

def quoted : State :=
  ringed owned 7 0xFF 0x65 (zeros 32)

def unlocks : State :=
  ringed (owned.setF scPage SC_DBG_unlocked 1) 7 7 0x67 []

def signs : State :=
  { up with sec := { up.sec with quotes := [⟨7, zeros 448⟩], sigAt := some 0, leafNext := 2 ^ 30 - 2, leafEnd := 2 ^ 30 }, time := { up.time with elapsed := 1000000000 * 2 ^ 32 } }

def signsNext : State :=
  { signs with sec := { signs.sec with leafEnd := 2 ^ 30 - 2, leaf := some (1, 0) } }

def signsNone : State :=
  { signs with sec := { signs.sec with leafNext := 2 ^ 30 } }

/-- The hypotheses of QuotesSignaturesAndDebug are met, at the bounds of their ranges. -/
theorem test_witness_QuotesSignaturesAndDebug :
    Safety.accepted nonced 7 0x60 = some (sentU owned 0x60 [], sentFrame 0x60 []) ∧
    Safety.accepted unlocks 7 0x67 = some (sentU (owned.setF scPage SC_DBG_unlocked 1) 0x67 [], sentFrame 0x67 []) ∧
    nonced.halted = false ∧ (Safety.accepted quoted 7 0x65).isSome = true ∧
    unlocks.get64 scPage SC_DBG_END_LO_t_lo SC_DBG_END_HI_t_hi ≤ unlocks.ns ∧ signs.halted = false ∧
    signs.sec.quotes = ⟨7, zeros 448⟩ :: [] ∧ signs.sec.sigAt = some 0 ∧ 0 + 1000000000 * 2 ^ 32 ≤ signs.time.elapsed ∧
    signs.sec.leafNext < 2 ^ 30 ∧ signs.sec.leafNext < signs.sec.leafEnd ∧ signsNext.sec.leafEnd ≤ signsNext.sec.leafNext ∧
    2 ^ 30 ≤ signsNone.sec.leafNext :=
  ⟨sent_accepted owned 0x60 [] (by unfold Served; decide +kernel) (by decide +kernel) (by decide +kernel),
    sent_accepted (owned.setF scPage SC_DBG_unlocked 1) 0x67 [] (by unfold Served; decide +kernel) (by decide +kernel) (by decide +kernel),
    by decide +kernel⟩

def slot2 : State :=
  { owned with sec := { owned.sec with slots := [.empty, .empty, { state := 1, hash := zeros 32, kOwner := zeros 32, ceiling := 63 }], dus := [] } }

def chal : State :=
  (slot2.setF (ppSess 7) PP_SESS_STAT_state 1).setF (ppSess 7) PP_SESS_CTRL_slot 2

def chalOld : State :=
  { chal with time := { chal.time with elapsed := 10 * (1000000000 * 2 ^ 32) } }

def chalReq : State :=
  chal.setF (ppSess 7) PP_SESS_REQ_rights 0x2F

def chalRight : State :=
  chalReq.setSess 7 { chalReq.sess 7 with resp := (List.range 8).map fun i => le (chalReq.sessAnswer 7) (4 * i) 4 }

def opened : State :=
  (slot2.setF (ppSess 7) PP_SESS_STAT_state 2).setF (ppSess 7) PP_SESS_CTRL_slot 2

def backing : State :=
  slot2.setF (ppSess 7) PP_SESS_STAT_state 3

/-- The hypotheses of Sessions are met, at the bounds of their ranges. -/
theorem test_witness_Sessions :
    Safety.Admitted slot2 .host (ppSess 7) 0x40 ∧ slot2.sessState 7 = 0 ∧ bits (0x80000002 : Word).toNat 1 0 ≤ 2 ∧
    (slot2.owner 2).state = 1 ∧ Safety.Admitted chal .host (ppSess 7) 0x40 ∧ chal.sessState 7 = 1 ∧
    bits (2 : Word).toNat 1 0 = chal.getF (ppSess 7) PP_SESS_CTRL_slot ∧ Safety.Admitted opened .host (ppSess 7) 0x40 ∧
    opened.sessState 7 = 2 ∧ bits (2 : Word).toNat 1 0 = opened.getF (ppSess 7) PP_SESS_CTRL_slot ∧ chalOld.halted = false ∧
    chalOld.sessState 7 = 1 ∧ (chalOld.sess 7).challengeAt + 10 * (1000000000 * 2 ^ 32) ≤ chalOld.time.elapsed ∧
    backing.sessState 7 = 3 ∧ (backing.sess 7).backoffEnd ≤ backing.time.elapsed :=
  by unfold Safety.Admitted; decide +kernel

def leafed : State :=
  { up with sec := { up.sec with leaf := some (3, 2048) } }

/-- The hypotheses of DeviceResetKeeps are met, at the bounds of their ranges. -/
theorem test_witness_DeviceResetKeeps :
    10000 ≤ 10000 ∧ leafed.sec.leaf = some (3, 2048) ∧ 999 < 1000 :=
  by decide +kernel

def rom : State :=
  { State.reset with store := { State.reset.store with fw := [] } }

def bringup : State :=
  (((up.setF dvPage DV_BOOT_stage 3).setF mxCommonPage MX_STAT_trained 255).setF mxCommonPage MX_STAT_init_done 1).setF nsCommonPage NS_STAT_state 2

def hour : State :=
  { bringup with sec := { bringup.sec with svn := [1, 2, 3, 4], fwAt := some 0, images := [⟨1, 1, 9, 0, [], true⟩, ⟨1, 1, 9, 0, [], false⟩] }, time := { up.time with elapsed := 3600 * (1000000000 * 2 ^ 32) } }

/-- The hypotheses of BootSteps are met, at the bounds of their ranges. -/
theorem test_witness_BootSteps :
    rom.stage = 0 ∧ rom.link.heldReset = false ∧
    (∃ ty ∈ ([1, 2, 3, 4] : List Nat), ∀ im ∈ rom.bootImages, im.type = ty → im.valid = false) ∧ bringup.stage = 3 ∧
    bringup.bringUpDone = true ∧ bringup.link.heldReset = false ∧ hour.sec.fwAt = some 0 ∧
    0 + 3600 * (1000000000 * 2 ^ 32) ≤ hour.time.elapsed :=
  by decide +kernel

def ringOn : State :=
  ((up.setF (pxFaultPage) PX_FLT_CFG_en 1).setF pxFaultPage PX_FLT_CFG_depth_log2 2).setF pxFaultPage PX_FLT_IDX_wr 3

def haltRing : State :=
  (halt.setF (pxCmd 7) PX_CR_CFG_sq_log2 2)

/-- The hypotheses of RingRegisters are met, at the bounds of their ranges. -/
theorem test_witness_RingRegisters :
    Safety.Admitted up .host (pxCmd 7) 0x50 ∧ up.flag (pxCmd 7) PX_CR_CFG_en = false ∧ bit (0x80000022 : Word).toNat 31 = true ∧
    Safety.Admitted up .host (pxVr 31) 0x48 ∧ up.flag (pxVr 31) PX_VR_CFG_en = false ∧ Safety.Admitted up .host pxFaultPage 0x48 ∧
    up.flag pxFaultPage PX_FLT_CFG_en = false ∧ Safety.Admitted ringOn .host pxFaultPage 0x4C ∧
    (ringOn.getF pxFaultPage PX_FLT_IDX_wr + 2 ^ 16 - 65535) % 2 ^ 16 ≤ 2 ^ ringOn.getF pxFaultPage PX_FLT_CFG_depth_log2 ∧
    2 ^ ringOn.getF pxFaultPage PX_FLT_CFG_depth_log2 < (ringOn.getF pxFaultPage PX_FLT_IDX_wr + 2 ^ 16 - 65534) % 2 ^ 16 ∧
    Safety.Admitted haltRing .host (pxCmd 7) 0x54 ∧ haltRing.halted = true ∧ haltRing.psState ≠ 2 ∧ haltRing.psState ≠ 3 ∧
    (4 + 2 ^ 16 - haltRing.getF (pxCmd 7) PX_SQ_HEAD_head) % 2 ^ 16 ≤ 2 ^ haltRing.getF (pxCmd 7) PX_CR_CFG_sq_log2 :=
  by unfold Safety.Admitted; decide +kernel

def linked : State :=
  { up with link := { up.link with up := true } }

def unlinked : State :=
  { up with link := { up.link with up := false } }

/-- The hypotheses of LinkEvents are met, at the bounds of their ranges. -/
theorem test_witness_LinkEvents :
    linked.link.up = true ∧ unlinked.link.up = false ∧ 1 ≤ (1 : Fin 6).val ∧ (8 : BitVec 8).toNat ∈ ([1, 2, 4, 8] : List Nat) ∧
    bringup.stage = 3 ∧ halt.stage = 5 ∧ up.psState ≠ 4 ∧ up.psState ≠ 5 ∧ nonced.halted = false ∧ (nonced.frameAt 7).isSome = true :=
  by decide +kernel

/-- Stream 31 of port 7 and virtual channel 15: RAW8, 16 samples a line, 16 lines a stripe; the port receives. -/
def strm0 : State :=
  let p := feStrm 31
  (((((on up (fePort 7)).setF (fePort 7) FE_PORT_CTRL_rx_en 1).setWord (p + 0x40) 0x2AF7).setWord (p + 0x44) 0x10010).setWord (p + 0xD0)
    1000)

def strmBad : State :=
  strm0.setWord (feStrm 31 + 0x54) 16383

def strmOn : State :=
  after (.streamEnable .host 31 1) strm0

/-- One line of 16 samples. -/
def line16 : List Byte := (List.range 16).map fun i => BitVec.ofNat 8 (i + 1)

def strmOpen : State :=
  after (.longPacket 7 15 0x2A line16 false false none) strmOn

def strmRow14 : State :=
  { strmOpen with fe := { strmOpen.fe with strm := [(31, { strmOpen.strm 31 with count := 14, firstLine := true })] } }

def strmNamed : State :=
  ({ strmOpen with jobs := [(0, some { sampleJob with blk := { sampleBlock with pistes := [⟨31, 0, 0, 1, 1⟩] } })] } : State)

/-- The configuration that stream 31 runs with. -/
def cfg31 : StrmCfg := ⟨0x2AF7, 0x10010, 0, 1, 0⟩
/-- The index, number and buffer of the open stripes of stream 31. -/
def open31 (s : State) : List (Nat × Nat × Option Nat) := (s.strm 31).opened.map fun o => (o.idx, o.seq, o.buf)

/-- The hypotheses of StreamEnables are met, at the bounds of their ranges. -/
theorem test_witness_StreamEnables :
    Safety.Admitted strm0 .host (feStrm 31) 0xC ∧ bit (1 : Word).toNat 1 = false ∧ (strm0.strm 31).cfg = none ∧
    strm0.enableReason 31 = 0 ∧ Safety.Admitted strmBad .host (feStrm 31) 0xC ∧ (strmBad.strm 31).cfg = none ∧
    strmBad.enableReason 31 ≠ 0 ∧ Safety.Admitted strmNamed .puppeteer (feStrm 31) 0xC ∧ (strmNamed.strm 31).cfg = some cfg31 ∧
    (strmNamed.strm 31).opened.length = 1 ∧ open31 strmNamed = [(0, 0, some 0)] ∧ strmNamed.jobsNaming 31 ≠ [] :=
  by unfold Safety.Admitted; decide +kernel

/-- The hypotheses of LongPackets are met, at the bounds of their ranges. -/
theorem test_witness_LongPackets :
    strmRow14.portOn 7 = true ∧ strmRow14.streamsOn 7 (15 : Fin 16) = [31] ∧ (strmRow14.strm 31).cfg = some cfg31 ∧
    bits cfg31.ctrl 13 8 = (0x2A : BitVec 6).toNat ∧ bits cfg31.ctrl 21 20 ≠ 1 ∧ open31 strmRow14 = [(0, 0, some 0)] ∧
    (strmRow14.strm 31).realign = false ∧ (strmRow14.strm 31).idxOff = 0 ∧ (strmRow14.strm 31).count = 0 * geomH cfg31.geom + 14 ∧
    14 + 1 < geomH cfg31.geom ∧ (strmRow14.strm 31).firstIdx = some 0 ∧ (strmRow14.strm 31).closedSet.contains 0 = false ∧
    (strmRow14.strm 31).lostSet.contains 0 = false ∧
    (unpack (0x2A : BitVec 6).toNat line16).length = storeChans cfg31.store * geomPx cfg31.geom :=
  by decide +kernel

def strmFrame : State :=
  strmOn.setStrm 31 { strmOn.strm 31 with framePkt := 1 }

def strmFrame2 : State :=
  strmOn.setStrm 31 { strmOn.strm 31 with framePkt := 2 }

/-- The hypotheses of ShortPackets are met, at the bounds of their ranges. -/
theorem test_witness_ShortPackets :
    strmOn.portOn 7 = true ∧ strmOn.streamsOn 7 (15 : Fin 16) = [31] ∧ (strmOn.strm 31).cfg = some cfg31 ∧
    (strmOn.strm 31).framePkt ≠ 1 ∧ bit cfg31.ctrl 19 = false ∧ bits cfg31.frame 15 0 = 0 ∧ strmFrame.portOn 7 = true ∧
    (strmFrame.strm 31).framePkt = 1 ∧ strmFrame2.portOn 7 = true ∧ strmFrame2.streamsOn 7 (15 : Fin 16) = [31] ∧
    (strmFrame2.strm 31).framePkt = 2 ∧ (strmOn.lanesInUse 7).contains (0 : Fin 4).val = true :=
  by decide +kernel

def strmLate : State :=
  { (strmOpen.setF (feStrm 31) FE_STRM_LPER_period_ns 10) with time := { strmOpen.time with elapsed := strmOpen.time.elapsed + 230 * 2 ^ 32, now := strmOpen.time.now + 230 * 2 ^ 32 } }

/-- A stripe of stream 31, its member, and a job of which it is the one stripe held. -/
def info31 : StripeInfo :=
  { stream := 31, seq := 0xFFFFFFFF, lost := false, buf := 1, geom := 0x10010, store := 1, bufWord := 0, stamp := 0, enc0 := 0
    hasPad := false, closeNs := 0, waiting := [0] }
def freed : State :=
  let m : Member := ⟨0, info31, true, false⟩
  let st : SetSt :=
    { num := 5, plan := 0, bind := [3], skip := false, anchor := 0, cap := 0, tref := some 0, sw := 0, members := [m], cells := []
      begun := true, bank := 0, firstPass := false, complete := false, crops := 0, caps := 0, reruns := [], missed := [], spots := [] }
  let x := { sampleJob with sets := [st] }
  { (strmOn.setStrm 31 { strmOn.strm 31 with free := [0] }) with jobs := [(3, some x)] }
def freedSets : List SetSt := ((freed.job 3).map (·.sets)).getD []

def tld : State :=
  (on up feCommonPage)

def tldBusy : State :=
  { tld with fe := { tld.fe with tld := some ⟨0x1000, false, 1, 16383⟩ }, host := [(0x1000, 5), (0x1FFF, 7)], stripe := [(0x3FFEFFF, 9)] }

/-- The hypotheses of StripesAndTables are met, at the bounds of their ranges. -/
theorem test_witness_StripesAndTables :
    strmLate.halted = false ∧ (strmLate.strm 31).cfg = some cfg31 ∧ open31 strmLate = [(0, 0, some 0)] ∧
    ((strmLate.strm 31).opened.all fun o => strmLate.deadline 31 cfg31 o == some strmLate.ns) = true ∧
    Safety.Admitted tld .host feCommonPage 0x48 ∧ tld.flag feCommonPage FE_TLD_STAT_busy = false ∧
    tld.enabled feCommonPage = true ∧ bits (0x7FFE : Word).toNat 13 0 + bits (0x7FFE : Word).toNat 27 14 ≤ 16384 ∧
    freed.halted = false ∧ freed.jobs.length = 1 ∧ freed.jobs.map (·.1) = [(3 : Fin 4).val] ∧ freedSets.length = 1 ∧
    (freedSets.all fun t => decide (t.members = [⟨0, info31, true, false⟩])) = true ∧ info31.seq = (0xFFFFFFFF : Word).toNat ∧
    freed.fe.handed = [] ∧ (freed.strm 31).opened = [] ∧
    (freed.jobs.all fun e => e.2.all fun x => freedSets.all fun t => freed.mayRelease x t ⟨0, info31, true, false⟩) = true ∧
    (freed.strm 31).free.contains info31.buf = false ∧ tldBusy.halted = false ∧ tldBusy.fe.tld = some ⟨0x1000, false, 1, 16383⟩ :=
  by unfold Safety.Admitted; decide +kernel

/-- Memory cells from parts at offsets from a base, in order: the bytes that are not 0. -/
def cellsAt (base : Nat) (parts : List (Nat × List Byte)) : List Host.Cell :=
  parts.flatMap fun p => (p.2.zipIdx (base + p.1)).filterMap fun b => if b.1 = 0 then none else some (b.2, b.1)
/-- One instruction: opcode, waits and posts with their semaphores, argument (R175). -/
def instr (op : Nat) (wait post : Option Nat) (arg : Nat) : Nat :=
  op * 2 ^ 58 + b01 wait.isSome * 2 ^ 57 + b01 post.isSome * 2 ^ 56 + wait.getD 0 * 2 ^ 50 + post.getD 0 * 2 ^ 44 + arg
/-- Core 127 running at pc 255, this instruction there. -/
def running (w : Nat) : State :=
  (((on up (cr 127)).setF (cr 127) CR_SEQ_CTRL_run 1).setF (cr 127) CR_SEQ_STAT_pc 255).setCore 127
    { CoreSt.idle with imem := [(255, w)] }
/-- The core's instruction stopped. -/
def stopped (w : Nat) : State := (running w).setF (cr 127) CR_SEQ_CTRL_run 0

def seqData : State :=
  ((stopped 7).setF (cr 127) CR_IDX_table 1).setF (cr 127) CR_IDX_index 255

def seqIdle : State :=
  ((stopped 7).setF (cr 127) CR_SEQ_CTRL_start_pc 9)

def seqNop : State :=
  stopped 0

/-- The hypotheses of CoreRegisterCommands are met, at the bounds of their ranges. -/
theorem test_witness_CoreRegisterCommands :
    Safety.Admitted seqIdle .host (cr 127) 0x40 ∧ seqIdle.enabled (cr 127) = true ∧ seqIdle.flag (cr 127) CR_SEQ_CTRL_run = false ∧
    Safety.Admitted seqNop .puppeteer (cr 127) 0x40 ∧ seqNop.enabled (cr 127) = true ∧
    seqNop.flag (cr 127) CR_SEQ_CTRL_run = false ∧ bit (0xFF00 : Word).toNat 0 = false ∧ seqNop.instrAt 127 = 0 ∧
    bit (0xFF00 : Word).toNat 1 = false ∧ Safety.Admitted seqData .host (cr 127) 0x7C ∧
    seqData.flag (cr 127) CR_SEQ_CTRL_run = false ∧ seqData.getF (cr 127) CR_IDX_table < 2 ∧
    seqData.getF (cr 127) CR_IDX_index < 256 ∧ Safety.Admitted seqIdle .host (cr 127) 0x70 :=
  by unfold Safety.Admitted; decide +kernel

/-- Semaphore x of rink 15 with a limit of 255 and a count. -/
def sem15 (s : State) (x count : Nat) : State := (s.setF (rk 15) RK_SEMn_limit 255 x).setF (rk 15) RK_SEMn_count count x

def waits : State :=
  sem15 (running (instr 2 (some 63) none 0)) 63 1

def stays : State :=
  sem15 (running (instr 3 (some 63) none 31)) 63 0

def posts : State :=
  sem15 (running (instr 0 none (some 63) 0)) 63 254

def loops : State :=
  running (instr 4 none none (2 ^ 24 + 255 * 2 ^ 16 + 65535))

/-- The hypotheses of PlainInstructions are met, at the bounds of their ranges. -/
theorem test_witness_PlainInstructions :
    waits.halted = false ∧ waits.flag (cr 127) CR_SEQ_CTRL_run = true ∧ iOp (waits.instrAt 127) = 2 ∧
    iWaitEn (waits.instrAt 127) = true ∧ iPostEn (waits.instrAt 127) = false ∧
    waits.semLimit 15 (iWaitSem (waits.instrAt 127)) ≠ 0 ∧ waits.semCount 15 (iWaitSem (waits.instrAt 127)) ≠ 0 ∧
    stays.flag (cr 127) CR_SEQ_CTRL_run = true ∧ iOp (stays.instrAt 127) = 3 ∧
    stays.busyBits 127 &&& iArg (stays.instrAt 127) % 32 = 0 ∧ iWaitEn (stays.instrAt 127) = true ∧
    stays.semLimit 15 (iWaitSem (stays.instrAt 127)) ≠ 0 ∧ stays.semCount 15 (iWaitSem (stays.instrAt 127)) = 0 ∧
    posts.flag (cr 127) CR_SEQ_CTRL_run = true ∧ iOp (posts.instrAt 127) = 0 ∧ iWaitEn (posts.instrAt 127) = false ∧
    iPostEn (posts.instrAt 127) = true ∧
    posts.semCount 15 (iPostSem (posts.instrAt 127)) < posts.semLimit 15 (iPostSem (posts.instrAt 127)) ∧
    loops.flag (cr 127) CR_SEQ_CTRL_run = true ∧ iOp (loops.instrAt 127) = 4 ∧ iWaitEn (loops.instrAt 127) = false ∧
    iPostEn (loops.instrAt 127) = false ∧ (running 0).flag (cr 127) CR_SEQ_CTRL_run = true ∧ iOp ((running 0).instrAt 127) = 0 :=
  by decide +kernel

/-- The scratchpad of rink 15: a rink program of one group of cores 0 and 7 with a halo entry and a carry entry, a stage program, and
the descriptor of a MATMUL of 32 channels by 32 with its tables. -/
def pad15 : List Host.Cell :=
  cellsAt (15 * 2 ^ 23)
    [(0, [1, 1, 0, 0] ++ leBytes 4 1 ++ leBytes 4 0x4000 ++ leBytes 4 64 ++ leBytes 4 0x1000 ++ leBytes 4 (0x2000 + 2 ^ 24) ++ [0, 63]),
      (0x40, [0x81, 1, 1, 0] ++ leBytes 4 0x10 ++ leBytes 4 0x28 ++ leBytes 4 0x30),
      (0x50, leBytes 8 (0x1C + 2 * 2 ^ 32)), (0x88, leBytes 8 (0x1C + 2 * 2 ^ 32 + 2 ^ 48)),
      (0x400, [0]), (0x43F, [2]), (0x440, List.replicate 64 255),
      (0x500, leBytes 4 0x3000 ++ leBytes 4 0x100 ++ leBytes 4 16 ++ leBytes 4 64 ++ leBytes 2 4 ++ leBytes 2 1 ++ [2, 1, 1, 0, 9, 0, 1, 2] ++
        leBytes 4 0x3800),
      (0x600, leBytes 4 0x5000 ++ leBytes 4 0x100 ++ leBytes 4 16 ++ leBytes 4 64 ++ leBytes 2 1 ++ leBytes 2 16 ++ [1, 2, 0, 1, 2, 0, 5, 0] ++
        leBytes 4 0x6000),
      (0x700, leBytes 8 (instr 1 none (some 5) 0x20) ++ leBytes 8 (instr 5 none none 0)),
      (0x800, [2, 1, 0, 0] ++ leBytes 4 0x48 ++ leBytes 4 0xA0), (0x82C, [1, 1]),
      (0x900, [2, 1, 8, 64]), (0x920, leBytes 4 0 ++ leBytes 4 32 ++ leBytes 2 0 ++ leBytes 2 32 ++ [32]),
      (0x940, [3, 0] ++ leBytes 2 73 ++ leBytes 4 32 ++ leBytes 2 0 ++ leBytes 2 32 ++ [32]),
      (0xA00, [4, 0, 1, 0, 2, 2, 2, 1]), (0xA0E, [32, 0])]
/-- Core 127 issues that MATMUL. -/
def matS : State := { running (instr 1 none (some 5) 0x20) with spad := pad15 }
def matO : Oper := parseOper (matS.spadReader 15) 0x20

def ends : State :=
  running (instr 5 none none 0)

def halts : State :=
  running (instr 6 none none 0)

/-- The hypotheses of CellEndHaltAndOp are met, at the bounds of their ranges. -/
theorem test_witness_CellEndHaltAndOp :
    ends.halted = false ∧ ends.flag (cr 127) CR_SEQ_CTRL_run = true ∧ iWaitEn (ends.instrAt 127) = false ∧
    iPostEn (ends.instrAt 127) = false ∧ ends.unitsIdle 127 = true ∧ iOp (ends.instrAt 127) = 5 ∧
    halts.flag (cr 127) CR_SEQ_CTRL_run = true ∧ iPostEn (halts.instrAt 127) = false ∧ halts.unitsIdle 127 = true ∧
    iOp (halts.instrAt 127) = 6 ∧ matS.halted = false ∧ matS.flag (cr 127) CR_SEQ_CTRL_run = true ∧
    iWaitEn (matS.instrAt 127) = false ∧ iOp (matS.instrAt 127) = 1 ∧ iArg (matS.instrAt 127) % 2 ^ 17 = 0x20 ∧
    (matS.core 127).cur = none ∧ (matS.core 127).drain = none ∧ matO.isMat = true ∧ matO.isPair = false ∧
    matS.emptied 127 (matS.heldRec 127) = false ∧
    State.emptyOutput matO (matS.heldRec 127).width (geomH (matS.heldRec 127).geom) = false ∧
    State.issueCheck matO none (matS.fahead 127) (matS.heldRec 127).width (geomH (matS.heldRec 127).geom) = 0 ∧
    State.emptyExtent matO (matS.extents 127 matO (matS.heldRec 127).width (geomH (matS.heldRec 127).geom)) = false ∧
    State.beyondBound matO (matS.extents 127 matO (matS.heldRec 127).width (geomH (matS.heldRec 127).geom)) = false :=
  by decide +kernel

/-- The operator in core 127 with its visit begun and accumulator tile 63 open. -/
def matP0 : OpSt := ((after (.op 127) matS).core 127).cur.get (by decide +kernel)
def matP : OpSt := { matP0 with visit := some 0, accs := [⟨63, 0, 0, 0, 0, 0, 0, 0⟩] }
def matT : State := (after (.op 127) matS).setCur 127 matP
def matV : Visit := matP.visits[0]'(by decide +kernel)
def matX : Step0 := matV.steps[0]'(by decide +kernel)
/-- The operator after its one T0 tile has issued: it has left the walk. -/
def matQ : OpSt := { matP with arr := [⟨63, [(0, [List.replicate 32 1])], [true]⟩], accs := [⟨63, 0, 0, 0, 0, 0, 1, 0⟩] }
def matU : State := (after (.op 127) matS).setCur 127 matQ
/-- The operator draining, its tile complete. -/
def matD : OpSt := { matP with walked := true, visit := none, accs := [⟨63, 0, 0, 0, 0, 0, 1, 1⟩] }
def matW : State := { matS with cores := [] }.setDrain 127 matD
/-- The operator finished. -/
def matE : OpSt := { matD with accs := [] }
def matF : State := sem15 ({ matS with cores := [] }.setDrain 127 matE) 5 254

/-- The hypotheses of ArrayTiles are met, at the bounds of their ranges. -/
theorem test_witness_ArrayTiles :
    matT.halted = false ∧ (matT.core 127).cur = some matP ∧ matP.walked = false ∧ matP.visit = some 0 ∧
    matP.visits[0]? = some matV ∧ matV.steps[matP.step]? = some matX ∧ (matP.oper matV.phase).onRowUnit = false ∧
    (matP.oper matV.phase).isArgmax = false ∧ (matP.oper matV.phase).isRowFn = false ∧
    matP.accs.find? (fun b => b.phase == matV.phase && b.oc == matX.start.at' dOC && b.ox == matX.start.at' dOX && b.oy == matX.start.at' dOY && b.el == matX.el) = some ⟨63, 0, 0, 0, 0, 0, 0, 0⟩ ∧
    (matT.weightColumns 127 matP matV matX (matP.slotAddr matV.phase true ((OpSt.slotOf matP.wt1 matV.wt1).getD 0))).2 = false ∧
    matU.halted = false ∧ (matU.core 127).cur = some matQ ∧ (matU.core 127).drain = none ∧
    matQ.arr = ⟨63, [(0, [List.replicate 32 1])], [true]⟩ :: [] ∧
    matQ.accs.find? (fun b => b.num == 63) = some ⟨63, 0, 0, 0, 0, 0, 1, 0⟩ ∧ matU.flag (cr 127) CR_RES_INJECT_arm = false ∧
    matW.halted = false ∧ (matW.core 127).drain = some matD ∧ State.blockReady matD = false ∧
    matD.accs.find? (State.drainable matD) = some ⟨63, 0, 0, 0, 0, 0, 1, 1⟩ ∧ matF.halted = false ∧ (matF.core 127).cur = none ∧
    (matF.core 127).drain = some matE ∧ State.finished matE = true ∧ matE.post = some 5 ∧
    matF.semCount (127 / 8) 5 < matF.semLimit (127 / 8) 5 :=
  by decide +kernel

/-- A cell record of stripe 7 of stream 31 at rink 15: 4 columns, 3 of them valid. -/
def cell7 : CellRec := { CellRec.none with seq := 7, stream := 31, width := 4, valid := 3, geom := 0x10010, store := 1, set := 2 }
/-- Rink 15 in a state of RK_STATE with one record of set 2 and every semaphore at a limit of 255 and a count of 1. -/
def rinkSt (st : Nat) (f : RinkSt → RinkSt) : State :=
  let s := ({ up with spad := pad15 }).setF (rk 15) RK_STATE_state st
  let s1 := [0, 1, 2, 63].foldl (fun s x => sem15 s x 1) s
  s1.setRink 15 (f { RinkSt.idle with
    recs := [cell7], set := some 2, total := 1, carry := List.replicate 8 0, halo := List.replicate 8 HaloPos.start })

def loading : State :=
  rinkSt 1 id

def running15 : State :=
  rinkSt 2 id

def drained : State :=
  rinkSt 3 fun r => { r with carry := List.replicate 8 1, halo := List.replicate 8 { HaloPos.start with done := 1 } }

def drainMore : State :=
  rinkSt 3 fun r => { r with recs := [cell7, cell7], total := 2, carry := List.replicate 8 2, halo := List.replicate 8 { HaloPos.start with done := 2 } }

def drainRound : State :=
  ({ drainMore with spad := memWrite pad15 (15 * 2 ^ 23) [1, 2, 1, 0] }).setF (rk 15) RK_STATE_group 1

def drainGroup : State :=
  { drained with spad := memWrite pad15 (15 * 2 ^ 23) [1, 2, 1, 0] }

def carry0 : CarryEnt := (running15.group 15).carries[0]'(by decide +kernel)
def halo0 : HaloEnt := (running15.group 15).halos[0]'(by decide +kernel)

/-- The hypotheses of RinkPhases are met, at the bounds of their ranges. -/
theorem test_witness_RinkPhases :
    loading.halted = false ∧ loading.rkState 15 = 1 ∧ (loading.group 15).has 7 = true ∧
    (loading.group 15).stages[7]? = some ⟨0x700, 2, 1, true⟩ ∧ drainGroup.halted = false ∧ drainGroup.rkState 15 = 3 ∧
    drainGroup.rinkIdle 15 = true ∧ drainGroup.groupNo 15 + 1 < (drainGroup.prog 15).nGroups ∧ drainRound.rkState 15 = 3 ∧
    drainRound.rinkIdle 15 = true ∧ (drainRound.prog 15).nGroups ≤ drainRound.groupNo 15 + 1 ∧
    (drainRound.rink 15).before + drainRound.roundCells 15 < (drainRound.rink 15).total ∧ drained.rkState 15 = 3 ∧
    drained.rinkIdle 15 = true ∧ (drained.prog 15).nGroups ≤ drained.groupNo 15 + 1 ∧
    (drained.rink 15).total ≤ (drained.rink 15).before + drained.roundCells 15 ∧
    (drained.rink 15).recs.drop (drained.roundCells 15) = [] ∧ running15.rkState 15 = 2 ∧ running15.groupNo 15 = 0 ∧
    (running15.rink 15).copies = 0 ∧ (running15.rink 15).recs[0]? = some cell7 ∧ (running15.rink 15).set = some cell7.set ∧
    0 < running15.roundCells 15 ∧ (running15.lift 15).length < 6 ∧ (running15.prog 15).freeSem = 63 ∧
    (running15.prog 15).fullSem = 0 ∧ running15.semCount 15 63 ≠ 0 ∧ running15.semLimit 15 63 ≠ 0 ∧
    running15.semCount 15 0 < running15.semLimit 15 0 ∧ cell7.valid ≤ cell7.width ∧ (running15.group 15).carries = [carry0] ∧
    (running15.rink 15).carry.getD 0 0 = 0 ∧ (running15.rink 15).carry.length = 8 ∧ carry0.inSem = 1 ∧ carry0.outSem = 2 ∧
    running15.semCount 15 1 ≠ 0 ∧ running15.semLimit 15 1 ≠ 0 ∧ running15.semCount 15 2 < running15.semLimit 15 2 :=
  by decide +kernel

/-- The record with neighbours: rink 14 on the right, none on the left; rink 14 on both. -/
def cellR : CellRec := { cell7 with right := 0x8E, x0 := 100 }
def cellLR : CellRec := { cellR with left := 0x8E, gate := 10 }
def colsR : HaloMsg := ⟨0, 14, 0, true, 7, 31, 104, [1, 2]⟩
def colsLate : HaloMsg := ⟨0, 14, 0, true, 8, 31, 104, [1, 2]⟩

def haloNone : State :=
  running15

def haloRight : State :=
  rinkSt 3 fun r => { r with recs := [cellR] }

def haloIn : State :=
  rinkSt 2 fun r => { r with recs := [cellR], inbound := [colsR] }

def haloLate : State :=
  rinkSt 2 fun r => { r with recs := [cellR], inbound := [colsLate] }

def haloCred : State :=
  rinkSt 2 fun r => { r with recs := [cellR], credits := [(0, true)], halo := List.replicate 8 { HaloPos.start with creditR := 1 } }

def haloOver : State :=
  { (rinkSt 2 fun r => { r with recs := [cellLR], halo := List.replicate 8 { HaloPos.start with begun := true } }) with time := { up.time with now := 11 * 2 ^ 32 } }

/-- The hypotheses of HaloExchange are met, at the bounds of their ranges. -/
theorem test_witness_HaloExchange :
    haloNone.halted = false ∧ haloNone.rkState 15 = 2 ∧ (haloNone.group 15).halos = [halo0] ∧ (haloNone.rink 15).halo.length = 8 ∧
    (haloNone.haloPos 15 0).done = 0 ∧ (haloNone.rink 15).recs[0]? = some cell7 ∧ halo0.inSem = 1 ∧ halo0.outSem = 2 ∧
    (haloNone.haloPos 15 0) = HaloPos.start ∧ 0 < haloNone.roundCells 15 ∧ haloNone.semCount 15 1 ≠ 0 ∧
    haloNone.semLimit 15 1 ≠ 0 ∧ (nbr cell7 false).1 = false ∧ (nbr cell7 true).1 = false ∧
    haloNone.semCount 15 2 < haloNone.semLimit 15 2 ∧ haloRight.rkState 15 = 3 ∧ (haloRight.group 15).halos = [halo0] ∧
    (haloRight.rink 15).recs[0]? = some cellR ∧ (nbr cellR false).1 = false ∧ nbr cellR true = (true, haloRight.node, 14) ∧
    (haloRight.haloPos 15 0).creditR ≠ 0 ∧ (haloRight.rink 15).rx = [] ∧ haloIn.rkState 15 = 2 ∧
    (haloIn.rink 15).inbound = colsR :: [] ∧ colsR.entry = 0 ∧ matchesMargin colsR cellR 0 colsR.right = true ∧
    haloIn.marginOpen 15 0 0 colsR.right = true ∧ (haloIn.haloPos 15 0).begun = false ∧ (haloIn.rink 15).rx = [] ∧
    (haloLate.rink 15).inbound = colsLate :: [] ∧ ((haloLate.rink 15).recs.all fun r => r.seq != colsLate.seq) = true ∧
    colsLate.node = haloLate.node ∧ (haloCred.rink 15).credits.contains (0, true) = true ∧ haloOver.rkState 15 = 2 ∧
    haloOver.halted = false ∧ (haloOver.haloPos 15 0).begun = true ∧ cellLR.gate < haloOver.ns ∧
    (haloOver.rink 15).recs[0]? = some cellLR ∧ (haloOver.rink 15).rx = [] ∧ (nbr cellLR false).1 = true ∧
    (nbr cellLR true).1 = true ∧ haloOver.semCount 15 2 < haloOver.semLimit 15 2 :=
  by decide +kernel

/-- Two plans of one cell at logical rink 3 for one piste: stream 31, verdict ring 31. -/
def plan1 : Plan :=
  { k := 1, div := 1, imageBytes := 64, imageBase := 0, imageStride := 1, gateMax := 1000, rinks := []
    cells := [{ piste := 0, rink := 3, pos := 0, x0 := 0, width := 16, gateOff := 1000, left := 0, right := 0, replica := false }]
    depth := [], spotDepth := 0, spotN := 0 }
def blk3 : PlanBlock := { sampleBlock with plans := [plan1, plan1, plan1], pistes := [⟨31, 31, 0, 1, 1⟩] }
/-- The set 5 of the job with stripe `info31`, and its cell with gate 1000. -/
def cellSt : CellSt := .new 0 1000
def member31 : Member := ⟨0, info31, true, false⟩
def setSt (c : CellSt) : SetSt :=
  { num := 5, plan := 0, bind := [3], skip := false, anchor := 0, cap := 0, tref := some 0, sw := 0, members := [member31], cells := [c]
    begun := true, bank := 0, firstPass := false, complete := false, crops := 0, caps := 0, reruns := [], missed := [], spots := [] }
def jobOf (c : CellSt) : JobSt := { sampleJob with blk := blk3, sets := [setSt c], nextSet := 6 }
/-- The machine with job 3, its rink 15 waiting for cells, verdict ring 31 enabled and the link up, at a time in ns. -/
def slal (x : JobSt) (ns : Nat) : State :=
  let s := (({ up with spad := pad15, jobs := [(3, some x)] }).setF (rk 15) RK_STATE_state 4).setRink 15 { RinkSt.idle with job := some 3, resident := some 0 }
  let s1 := ((s.setF (pxVr 31) PX_VR_CFG_en 1).setF (pxVr 31) PX_VR_BASE_LO_addr_lo 0x10000).setF (feSlm 3) FE_SLM_STAT_live 9
  { s1 with link := { s1.link with up := true }, time := { s1.time with now := ns * 2 ^ 32, elapsed := ns * 2 ^ 32 } }

def slRel : State :=
  slal (jobOf cellSt) 0

def slSwitch : State :=
  slal { jobOf { cellSt with released := true } with switch := some ⟨6, 1, false⟩ } 0

def slForce : State :=
  (on (slal (jobOf cellSt) 0) (feSlm 3)).setF (feSlm 3) FE_SLM_STAT_avail 7

/-- The hypotheses of SlalomReleases are met, at the bounds of their ranges. -/
theorem test_witness_SlalomReleases :
    slRel.job 3 = some (jobOf cellSt) ∧ (jobOf cellSt).stopping = false ∧ slRel.halted = false ∧ slRel.fe.handed = [] ∧
    (jobOf cellSt).switch = none ∧ (setSt cellSt).skip = false ∧ (setSt cellSt).spots = [] ∧
    (entOf (jobOf cellSt) (setSt cellSt) 0).piste = member31.piste ∧ cellSt.released = false ∧ cellSt.gone = false ∧
    cellSt.lost = false ∧ cellSt.rerun = none ∧ cellSt.spot = none ∧ entRink (jobOf cellSt) (setSt cellSt) 0 = 15 ∧
    slRel.roomFor (jobOf cellSt) (setSt cellSt) 15 = true ∧ slSwitch.halted = false ∧
    slSwitch.job 3 = some { jobOf { cellSt with released := true } with switch := some ⟨6, 1, false⟩ } ∧
    blk3.plans[1]? = some plan1 ∧
    slSwitch.switchReady 3 { jobOf { cellSt with released := true } with switch := some ⟨6, 1, false⟩ } ⟨6, 1, false⟩ = true ∧
    Safety.Admitted slForce .host (feSlm 3) 0x40 ∧ slForce.job 3 = some (jobOf cellSt) ∧ bit (0x200 : Word).toNat 12 = false ∧
    bits (0x200 : Word).toNat 10 8 = 2 ∧ slForce.jobs.map (·.1) = [(3 : Fin 4).val] ∧ blk3.plans[2]? = some plan1 ∧
    bit (slForce.getF (feSlm 3) FE_SLM_STAT_avail) 2 = true ∧
    plan1.k ≤ ((List.range 4).filter fun d => bit (slForce.getF (feSlm 3) FE_SLM_STAT_live) d).length ∧
    bit (0x200 : Word).toNat 11 = false :=
  by unfold Safety.Admitted; decide +kernel

/-- The record of the cell, its report with a summary of class 3, and the jobs of each case. -/
def rec5 : CellRec := { cell7 with set := 5, cell := 0, flagged := true }
def report5 : Report :=
  { rink := 15, rcd := rec5, summary := leBytes 4 9 ++ zeros 5 ++ [15] ++ zeros 6 ++ zeros 48 ++ leBytes 4 9 ++ leBytes 4 0x3F800000 ++ zeros 184
    feat := [], featE := 0 }
def jobRep : JobSt := { jobOf { cellSt with released := true } with reports := [(15, 0, rec5)] }
def jobSkip : JobSt := { jobOf cellSt with sets := [{ setSt cellSt with skip := true }] }
def jobEmit : JobSt := { jobOf { cellSt with rep := some report5 } with emits := [(5, 0)] }

def slRep : State :=
  slal jobRep 1000

def slSkip : State :=
  slal jobSkip 0

def slGate : State :=
  slal (jobOf cellSt) 1001

def slEmit : State :=
  slal jobEmit 7

/-- The hypotheses of SlalomVerdicts are met, at the bounds of their ranges. -/
theorem test_witness_SlalomVerdicts :
    slRep.halted = false ∧ slRep.job 3 = some jobRep ∧ jobRep.stopping = false ∧
    jobRep.reports.find? (fun r => r.1 == (15 : Fin 16).val) = some (15, 0, rec5) ∧
    jobRep.sets.find? (fun u => u.num == rec5.set) = some (setSt { cellSt with released := true }) ∧
    (setSt { cellSt with released := true }).cells[rec5.cell]? = some { cellSt with released := true } ∧ rec5.kind ≤ 1 ∧
    rec5.miss = false ∧ cellSt.passed = false ∧ cellSt.lost = false ∧ slRep.ns ≤ cellSt.gate ∧ slSkip.job 3 = some jobSkip ∧
    slSkip.halted = false ∧ (entOf jobSkip (setSt cellSt) 0).replica = false ∧ memberOf (setSt cellSt) 0 = some member31 ∧
    cellSt.done = false ∧ cellSt.held = none ∧ slSkip.link.up = true ∧ slSkip.vringRoom 31 = true ∧
    (slSkip.vring 31).opened = false ∧ slGate.job 3 = some (jobOf cellSt) ∧ slGate.vringRoom 31 = true ∧ cellSt.rep = none ∧
    cellSt.gate < slGate.ns ∧ slEmit.job 3 = some jobEmit ∧ slEmit.halted = false ∧ slEmit.vringRoom 31 = true ∧
    report5.rcd.kind = 0 ∧ report5.rcd.miss = false ∧ jobEmit.blk.markers = [] ∧ jobEmit.blk.crops = [] ∧ jobEmit.adapt = none :=
  by decide +kernel

/-- The MATMUL in core 127 as it issued: both of its tiles are due. -/
def liftS : State := after (.op 127) matS
def liftT : State := after (.chairliftFetchStart 143) liftS
def liftP : OpSt := (liftT.core 127).cur.get (by decide +kernel)
def liftD : State.Due := (liftS.dues 143)[0]'(by decide +kernel)
def liftX : Transfer := (liftT.lift 143)[0]'(by decide +kernel)
def liftV : Visit := liftP.visits[0]'(by decide +kernel)
/-- Group 15 runs for cores 126 and 127; core 127 receives a tile of it. -/
def runG : GondolaRun := ⟨0, [0, 0], [(142, 0), (143, 0)], []⟩
def gdS (r : GondolaRun) : State :=
  ((liftS.setGond 15 { GondolaGroup.none with run := some r }).setLift 15 [⟨127, true, 2, 0, 0, 1024, false, some 15⟩])
def liftQ : OpSt := (liftS.core 127).cur.get (by decide +kernel)

/-- The hypotheses of TileTransfers are met, at the bounds of their ranges. -/
theorem test_witness_TileTransfers :
    liftS.halted = false ∧ (liftS.lift 143).length < 6 ∧ liftS.dues 143 = liftD :: (liftS.dues 143).drop 1 ∧ liftD.core = 127 ∧
    liftS.walking 127 = some liftQ ∧ liftT.halted = false ∧ liftT.lift 143 = liftX :: [] ∧ liftX.via = none ∧ liftX.dead = false ∧
    liftX.core = 127 ∧ liftT.walking 127 = some liftP ∧
    (liftP.tiles liftX.level liftX.weight).find? (fun e => e.1 == liftX.tile) = some (liftX.tile, liftV) ∧
    16 ≤ (143 : Fin 144).val ∧ ((gdS runG).gond 15).run = some runG ∧ (gdS runG).walking 127 = some liftQ ∧
    ((gdS runG).lift 15).find? (fun t => t.core == 127 && t.via == some 15 && !t.dead) = some ⟨127, true, 2, 0, 0, 1024, false, some 15⟩ ∧
    (gdS runG).skidOk runG 143 (State.runBeats liftQ) = true ∧
    ((gdS { runG with attached := [(142, 1), (143, 0)] }).gond 15).run = some { runG with attached := [(142, 1), (143, 0)] } ∧
    [(142, 1), (143, 0)].find? (fun a => a.1 == (143 : Fin 144).val) = some (143, 0) ∧ 0 < runG.tiles.length ∧
    (142, 1) ∈ [(142, 1), (143, 0)] :=
  by decide +kernel

/-- Channel 15, its slot 7 READY: 64 bytes from GDDR6 at 0x1000 to the host at 0x2000. -/
def dmaS : State :=
  let p := dmCh 15
  let s := (on { up with gddr := [(0x1000, 7), (0x103F, 9)], host := [(0x1FFF, 1), (0x2040, 2)] } p).setF p DM_SLOTn_CTRL_state 1 7
  ((((s.setF p DM_SLOTn_CTRL_src_space 1 7).setF p DM_SLOTn_CNT_count 64 7).setF p DM_SLOTn_SRC_LO_addr_lo 0x1000 7).setF p
    DM_SLOTn_DST_LO_addr_lo 0x2000 7).setF mxCommonPage MX_STAT_init_done 1

def dmaGo : State :=
  after (.dmaGo .host 15 7) dmaS

def dmaRuns : State :=
  after (.dmaSlotStart 15) dmaGo

/-- The hypotheses of DmaChannels are met, at the bounds of their ranges. -/
theorem test_witness_DmaChannels :
    Safety.Admitted dmaS .host (dmCh 15) 0x40 ∧ dmaS.flag (dmCh 15) DM_CH_STAT_busy = false ∧ dmaS.enabled (dmCh 15) = true ∧
    dmaS.getF (dmCh 15) DM_SLOTn_CTRL_state (bits (7 : Word).toNat 2 0) = 1 ∧ Safety.Admitted dmaGo .host (dmCh 15) 0x40 ∧
    dmaGo.flag (dmCh 15) DM_CH_STAT_busy = true ∧ (dmaGo.dmaRun 15).slot = 7 ∧ (dmaGo.dmaRun 15).started = false ∧
    dmaGo.halted = false ∧ dmaGo.trigMet 15 7 = true ∧ dmaGo.slotFault 15 7 = 0 ∧ dmaGo.slotReadable 15 7 = true ∧
    dmaGo.getF (dmCh 15) DM_SLOTn_CTRL_dst_space 7 ≠ 3 ∧ dmaRuns.halted = false ∧ (dmaRuns.dmaRun 15).slot = 7 ∧
    (dmaRuns.dmaRun 15).started = true ∧ dmaRuns.peerWrites 15 = false ∧ dmaRuns.getF (dmCh 15) DM_SLOTn_CTRL_src_space 7 = 1 ∧
    dmaRuns.getF (dmCh 15) DM_SLOTn_CTRL_dst_space 7 = 0 ∧ dmaRuns.sealed = [] ∧ (dmaRuns.dmaErr 15 7 .gddrRead).2 = true ∧
    63 < dmaRuns.getF (dmCh 15) DM_SLOTn_CNT_count 7 :=
  by unfold Safety.Admitted; decide +kernel

/-- Window 255: 64 bytes of rink 0's scratchpad, in a state of WN_CTRL. -/
def winS (st : Nat) : State :=
  let p := winPage 255
  (((on up p).setF p WN_SIZE_size 1 63).setF p WN_TARGET_target 1 63).setF p WN_CTRL_state st 63
def block64 : List Byte := List.replicate 64 0xAB

def winQ : State :=
  { winS 1 with move := { (winS 1).move with winq := [⟨255, 0, block64⟩] } }

def winOpen : State :=
  (winS 1).setF (winPage 255) WN_CTRL_open 1 63

/-- The hypotheses of Windows are met, at the bounds of their ranges. -/
theorem test_witness_Windows :
    Safety.Admitted (winS 0) .host (winPage 255) (0x800 + 0x20 * winEnt 255) ∧ (winS 0).winBarred .host 255 = false ∧
    bits (0 : Word).toNat 27 18 = bits ((winS 0).word (winPage 255 + (0x800 + 0x20 * winEnt 255))) 27 18 ∧
    (winS 0).enabled (winPage 255) = true ∧ (winS 0).getF (winPage 255) WN_CTRL_state (winEnt 255) = 0 ∧
    (winS 0).openReason 255 = 0 ∧ Safety.Admitted winOpen .host (winPage 255) (0x800 + 0x20 * winEnt 255) ∧
    winOpen.winBarred .host 255 = false ∧
    bits (0 : Word).toNat 27 18 = bits (winOpen.word (winPage 255 + (0x800 + 0x20 * winEnt 255))) 27 18 ∧
    winOpen.getF (winPage 255) WN_CTRL_state (winEnt 255) = 1 ∧ (winS 2).halted = false ∧
    (winS 2).getF (winPage 255) WN_CTRL_state (winEnt 255) = 2 ∧ (winS 2).move.winq = [] ∧ (winS 1).halted = false ∧
    bits (0x3FC0000000000000 : BitVec 64).toNat 61 54 = (255 : Fin 256).val ∧ State.winSized block64.length = true ∧
    (0 : Fin 4).val = (winS 1).node ∧ (winS 1).getF (winPage 255) WN_CTRL_state (winEnt 255) = 1 ∧
    (winS 1).flag (winPage 255) WN_CTRL_kind (winEnt 255) = ((0 : Fin 4).val != (winS 1).node) ∧
    bits (0x3FC0000000000000 : BitVec 64).toNat 53 0 + block64.length ≤ 64 * (winS 1).getF (winPage 255) WN_SIZE_size (winEnt 255) ∧
    (winS 1).move.winq.length < 16 ∧ winQ.halted = false ∧ winQ.sealed = [] ∧
    winQ.move.winq.find? (fun x => x.win == (255 : Fin 256).val) = some ⟨255, 0, block64⟩ ∧
    Safety.Admitted (winS 1) .host (winPage 255) (0x810 + 0x20 * winEnt 255) ∧ (winS 1).winBarred .host 255 = false :=
  by unfold Safety.Admitted; decide +kernel

/-- A head of one layer of one weight with a batch of one sample, job 3 adapting it, and a capture of stripe 7 of stream 31 in its ring. -/
def desc1 : AdaptDesc :=
  { batch := 1, capture := true, actFn := 5, swapSteps := 1, capMax := 1, lr := 0x3F800000, beta1 := 0x3F000000, beta2 := 0x3F000000
    eps := 0x3F800000, wd := 0, rateMax := 1, classMask := 0x7FFF, layers := [⟨0, 1, 1, 0x100, 0x200, 0x300⟩], capBase := 0x400
    capLog2 := 0, feat := 0, featStride := 0, featNbuf := 1, featPr := 0, featPc := 0, featRs := 0, bankStride := 0x40
    wtFmt := [2], scales := [[0]], actFmt := 2, actZ := 0 }
def adapt1 : AdaptSt :=
  { desc := desc1, samples := [], caps := 1, run := none, lastStart := none, pausing := false, back := 1, wantSwap := false, next := none
    rollback := false, sinceSwap := 0 }
def adapting (st : Nat) (a : AdaptSt) : State :=
  ({ up with
    jobs := [(3, some { sampleJob with adapt := some a })]
    gddr := [(0x8000, 0x80), (0x8001, 0x3F), (0x10000, 7), (0x10004, 31), (0x10040, 1)] }).setF (feSlm 3) FE_SLM_ADAPT_state st

def adLabel : State :=
  ringed (adapting 1 adapt1) 7 7 0x40 ([1] ++ leBytes 4 7 ++ [31, 0, 16, 0, 0, 0] ++ zeros 6)

def adSwap : State :=
  ringed (adapting 4 adapt1) 7 7 0x41 []

def adPause : State :=
  ringed (adapting 1 adapt1) 7 7 0x42 []

def adPauseRun : State :=
  ringed (adapting 1 { adapt1 with run := some ⟨[], 0⟩ }) 7 7 0x42 []

def adResume : State :=
  ringed (adapting 2 adapt1) 7 7 0x43 []

def adRollback : State :=
  ringed ((adapting 4 adapt1).setF mxCommonPage MX_STAT_init_done 1) 7 7 0x44 []

def adStep : State :=
  adapting 1 { adapt1 with samples := [⟨0, 0, 16⟩] }

def adDone : State :=
  adapting 1 { adapt1 with run := some ⟨[⟨0, 0, 16⟩], 0⟩, pausing := true }

def adBank : State :=
  adapting 2 { adapt1 with wantSwap := true }

/-- The hypotheses of Adaptation are met, at the bounds of their ranges: 1 of 5 groups of clauses. -/
theorem test_witness_Adaptation_1 :
    Safety.accepted adLabel 7 0x40 = some (sentU (adapting 1 adapt1) 0x40 ([1] ++ leBytes 4 7 ++ [31, 0, 16, 0, 0, 0] ++ zeros 6), sentFrame 0x40 ([1] ++ leBytes 4 7 ++ [31, 0, 16, 0, 0, 0] ++ zeros 6)) ∧
    adLabel.halted = false ∧ adLabel.adaptOf 3 = some adapt1 ∧
    (sentU (adapting 1 adapt1) 0x40 ([1] ++ leBytes 4 7 ++ [31, 0, 16, 0, 0, 0] ++ zeros 6)).adaptJobs 7 = [(3 : Fin 4).val] ∧
    le (frameBody (sentFrame 0x40 ([1] ++ leBytes 4 7 ++ [31, 0, 16, 0, 0, 0] ++ zeros 6))) 0 1 = 1 ∧
    (frameBody (sentFrame 0x40 ([1] ++ leBytes 4 7 ++ [31, 0, 16, 0, 0, 0] ++ zeros 6))).length = 17 ∧
    desc1.layers.getLast? = some ⟨0, 1, 1, 0x100, 0x200, 0x300⟩ ∧
    ((frameBody (sentFrame 0x40 ([1] ++ leBytes 4 7 ++ [31, 0, 16, 0, 0, 0] ++ zeros 6))).drop 1 = leBytes 4 7 ++ [31, 0, 16, 0, 0, 0] ++ zeros 6) ∧
    adLabel.findCapture adapt1 7 31 0 = some 0 :=
  ⟨sent_accepted (adapting 1 adapt1) 0x40 ([1] ++ leBytes 4 7 ++ [31, 0, 16, 0, 0, 0] ++ zeros 6) (by unfold Served; decide +kernel) (by decide +kernel) (by decide +kernel),
    by decide +kernel⟩

/-- The hypotheses of Adaptation are met, at the bounds of their ranges: 2 of 5 groups of clauses. -/
theorem test_witness_Adaptation_2 :
    Safety.accepted adSwap 7 0x41 = some (sentU (adapting 4 adapt1) 0x41 [], sentFrame 0x41 []) ∧
    Safety.accepted adPause 7 0x42 = some (sentU (adapting 1 adapt1) 0x42 [], sentFrame 0x42 []) ∧
    Safety.accepted adPauseRun 7 0x42 = some (sentU (adapting 1 { adapt1 with run := some ⟨[], 0⟩ }) 0x42 [], sentFrame 0x42 []) ∧
    (sentU (adapting 4 adapt1) 0x41 []).adaptJobs 7 = [(3 : Fin 4).val] ∧ adSwap.adaptState 3 = 4 ∧
    (sentU (adapting 1 adapt1) 0x42 []).adaptJobs 7 = [(3 : Fin 4).val] ∧ adPause.adaptState 3 = 1 :=
  ⟨sent_accepted (adapting 4 adapt1) 0x41 [] (by unfold Served; decide +kernel) (by decide +kernel) (by decide +kernel),
    sent_accepted (adapting 1 adapt1) 0x42 [] (by unfold Served; decide +kernel) (by decide +kernel) (by decide +kernel),
    sent_accepted (adapting 1 { adapt1 with run := some ⟨[], 0⟩ }) 0x42 [] (by unfold Served; decide +kernel) (by decide +kernel) (by decide +kernel),
    by decide +kernel⟩

/-- The hypotheses of Adaptation are met, at the bounds of their ranges: 3 of 5 groups of clauses. -/
theorem test_witness_Adaptation_3 :
    Safety.accepted adResume 7 0x43 = some (sentU (adapting 2 adapt1) 0x43 [], sentFrame 0x43 []) ∧
    Safety.accepted adRollback 7 0x44 = some (sentU ((adapting 4 adapt1).setF mxCommonPage MX_STAT_init_done 1) 0x44 [], sentFrame 0x44 []) ∧
    (sentU (adapting 2 adapt1) 0x43 []).adaptJobs 7 = [(3 : Fin 4).val] ∧ adResume.adaptState 3 = 2 ∧
    (sentU ((adapting 4 adapt1).setF mxCommonPage MX_STAT_init_done 1) 0x44 []).adaptJobs 7 = [(3 : Fin 4).val] ∧
    adRollback.adaptState 3 = 4 ∧ adRollback.initReadable adapt1 = true ∧ adapt1.run = none :=
  ⟨sent_accepted (adapting 2 adapt1) 0x43 [] (by unfold Served; decide +kernel) (by decide +kernel) (by decide +kernel),
    sent_accepted ((adapting 4 adapt1).setF mxCommonPage MX_STAT_init_done 1) 0x44 [] (by unfold Served; decide +kernel) (by decide +kernel) (by decide +kernel),
    by decide +kernel⟩

/-- The hypotheses of Adaptation are met, at the bounds of their ranges: 4 of 5 groups of clauses. -/
theorem test_witness_Adaptation_4 :
    adStep.halted = false ∧ adStep.adaptOf 3 = some { adapt1 with samples := [⟨0, 0, 16⟩] } ∧ adStep.adaptState 3 = 1 ∧
    desc1.batch ≤ [(⟨0, 0, 16⟩ : Sample)].length ∧ adapt1.lastStart = none ∧
    adDone.adaptOf 3 = some { adapt1 with run := some ⟨[⟨0, 0, 16⟩], 0⟩, pausing := true } :=
  by decide +kernel

/-- The hypotheses of Adaptation are met, at the bounds of their ranges: 5 of 5 groups of clauses. -/
theorem test_witness_Adaptation_5 :
    adBank.job 3 = some { sampleJob with adapt := some { adapt1 with wantSwap := true } } ∧
    [1, 2].find? (fun b => adBank.bankFree 3 b { sampleJob with adapt := some { adapt1 with wantSwap := true } }) = some 1 ∧
    adBank.adaptState 3 = 2 :=
  by decide +kernel

def fwS : State :=
  up.setF dvPage DV_BOOT_stage 3

def trained : State :=
  (up.setF mxCommonPage MX_CFG_ecc_en 1).setF mxCommonPage MX_STAT_trained 255

def mem : State :=
  (((({ up with gddr := [(0x3FFFC0, 5), (0x4001C0, 6)] }).setF mxCommonPage MX_CFG_ecc_en 1).setF mxCommonPage MX_STAT_init_done 1).setF mxCommonPage MX_STAT_trained 255).setF dvPage DV_BOOT_stage 4

def memR : State :=
  (on mem (mxCh 7)).setF (mxCh 7) MX_CH_STAT_state 3

def memP : State :=
  mem.setF mxCommonPage MX_SCRUB_period_ms 1

def noReady : State :=
  { mem with readyReached := false }

def bar2end : State :=
  mem.setF pxCommonPage PX_BAR2_win 0xFFF

/-- The hypotheses of MemoryAndBar2 are met, at the bounds of their ranges. -/
theorem test_witness_MemoryAndBar2 :
    fwS.halted = false ∧ fwS.stage = 3 ∧ fwS.getF mxCommonPage MX_STAT_trained = 0 ∧
    trained.getF mxCommonPage MX_STAT_trained = 255 ∧ trained.eccOn = true ∧ trained.flag mxCommonPage MX_STAT_init_done = false ∧
    mem.halted = false ∧ mem.getF (mxCh (gddrChannel (0x3FFFC0 / 64))) MX_CH_STAT_state ≠ 3 ∧ mem.eccOn = true ∧
    mem.flag mxCommonPage MX_STAT_init_done = true ∧ mem.requestShaped 0x3FFFC0 512 = true ∧
    mem.requestShaped 0x3FFFC0 (zeros 64).length = true ∧
    2 ≤ mem.getF (mxCh (gddrChannel (0x3FFFC0 / 64))) MX_CH_CTRL_edc_retries ∧ Safety.Admitted memR .host (mxCh 7) 0x40 ∧
    memR.enabled (mxCh 7) = true ∧ memR.getF (mxCh 7) MX_CH_STAT_state = 3 ∧ memR.stage = 4 ∧ memR.halted = false ∧
    memP.getF mxCommonPage MX_SCRUB_period_ms ≠ 0 ∧ (0xFFFF : Word).toNat * 64 < memP.gddrEnd ∧
    gddrChannel (0xFFFF : Word).toNat < 8 ∧ memP.getF (mxCh (gddrChannel 0xFFFF)) MX_CH_STAT_state = 0 ∧
    stateRuns mem.clockState (5 + (7 : Fin 8).val) = true ∧ (-32768 : Int) ≤ -32768 ∧ (32767 : Int) < 32768 ∧
    mem.hostWaits = false ∧ mem.psState ≠ 3 ∧ 2 ^ 28 - 4 + 4 ≤ 2 ^ mem.link.bar2Log2 ∧ mem.readyReached = true ∧
    mem.bar2Addr (2 ^ 28 - 4) + 4 ≤ mem.gddrEnd ∧ bar2end.gddrEnd ≤ bar2end.bar2Addr 0 ∧ bar2end.hostWaits = false ∧
    bar2end.readyReached = true ∧ noReady.readyReached = false ∧ noReady.hostWaits = false :=
  by unfold Safety.Admitted; decide +kernel

def live : State :=
  { up with spad := [(15 * 2 ^ 23, 1)], stripe := [(0, 1)] }

def fenced : State :=
  (live.setF pwPage PW_DOM_STATd_state 1 3).setF pwPage PW_DOM_CTRLd_auto_reset 1 3

def fencedFull : State :=
  fenced.setDomain 3 { fenced.domainAt 3 with resetTimes := List.replicate 255 0 }

def resetting : State :=
  (live.setF pwPage PW_DOM_STATd_state 2 3).setWord (cr 127 + 0x40) 5

def windowed : State :=
  live.setF pwPage PW_DOM_CNTd_events 9 3

/-- The hypotheses of ErrorsFencesAndHotReset are met, at the bounds of their ranges. -/
theorem test_witness_ErrorsFencesAndHotReset :
    live.halted = false ∧ live.sramLive (.core 127 3) = true ∧ live.sramLive (.spad 15) = true ∧ fwS.halted = false ∧
    fwS.stage = 3 ∧ live.jobs = [] ∧ live.domState 3 = 0 ∧ live.psState ≠ 6 ∧ (127 : Fin 128).val / 32 = (3 : Fin 4).val ∧
    Safety.Admitted live .host pwPage (0x200 + 0x20 * (3 : Fin 4).val) ∧ fenced.halted = false ∧ fenced.domState 3 = 1 ∧
    Safety.Admitted fenced .host pwPage (0x200 + 0x20 * (3 : Fin 4).val) ∧
    (fenced.recentResets 3).length < bits (0x10000 : Word).toNat 23 16 ∧
    bits (0x10000 : Word).toNat 23 16 ≤ (fencedFull.recentResets 3).length ∧
    Safety.Admitted fencedFull .host pwPage (0x200 + 0x20 * (3 : Fin 4).val) ∧
    fenced.flag pwPage PW_DOM_CTRLd_auto_reset 3 = true ∧
    (fenced.recentResets 3).length < fenced.getF pwPage PW_DOM_CTRLd_reset_max 3 ∧ fencedFull.domState 3 = 1 ∧
    fencedFull.halted = false ∧ fencedFull.flag pwPage PW_DOM_CTRLd_auto_reset 3 = true ∧
    fencedFull.getF pwPage PW_DOM_CTRLd_reset_max 3 ≤ (fencedFull.recentResets 3).length ∧ resetting.halted = false ∧
    resetting.domState 3 = 2 ∧
    (windowed.domainAt 3).winStart + windowed.getF pwPage PW_DOM_THRd_window_ms 3 * 1000000 * 2 ^ 32 ≤ ({ windowed with time := { windowed.time with elapsed := windowed.getF pwPage PW_DOM_THRd_window_ms 3 * 1000000 * 2 ^ 32 } } : State).time.elapsed :=
  by unfold Safety.Admitted; decide +kernel

/-- A small NAND: two channels of one LUN with 8 blocks of 64 pages of 16 KiB; MODELS 2 MiB, LOG 1 MiB, 5 % spare. -/
def nandProf : List Byte :=
  zeros 5 ++ [0, 0, 0x11] ++ leBytes 2 0x4000 ++ zeros 2 ++ leBytes 2 64 ++ leBytes 2 32 ++ leBytes 4 8 ++ [1] ++ zeros 3 ++
    leBytes 4 1000 ++ leBytes 4 500 ++ zeros 2 ++ [5, 90] ++ leBytes 2 2 ++ leBytes 2 1 ++ leBytes 2 40
/-- A store on it, empty and mounted; crop area and transfer area of 1 MiB each from address 0. -/
def stored (f : StoreSt → StoreSt) : State :=
  let st : StoreSt := { profile := nandProf, fw := [[1], [2], [3]], cal := [], models := [], arc := [], logs := [], logFirst := 0
                        logBlks := [], logPages := 0, blocks := [], openBlk := [], counter := 7, reserved := 70000, journal := 0, checkpoints := 0
                        dirSeq := [(0, 1), (1, 1)], xferSess := none, passStart := 0, crops := [], cropPos := 0 }
  let sec := { slot2.sec with vroot := [], policy := 0, policyCtr := 0, eccOff := false, leaf := none, svn := [], bootSalt := [] }
  let s := { slot2 with store := f st, sec := sec }
  ((s.setF nsCommonPage NS_STAT_state 2).setF nsCommonPage NS_STG_SIZE_crop_mib 1).setF nsCommonPage NS_STG_SIZE_xfer_mib 1
/-- A job image's envelope of slot 2 with a signature of 4 bytes, a body of 16 and a public key, in the transfer area. -/
def imageCells : List Host.Cell :=
  memWrite [] (2 ^ 20) (leBytes 4 0x424A5841 ++ [1, 2] ++ zeros 2 ++ leBytes 4 16 ++ leBytes 4 4 ++ zeros 48 ++ [9, 9, 9, 9] ++ List.replicate 16 5 ++ List.replicate 60 6)
/-- A record of slot 2 in block 3, and the store with it in ARCHIVE. -/
def aRec : ArcRec := ⟨5, leBytes 4 1 ++ [0, 2] ++ leBytes 2 1 ++ zeros 56, [], zeros 16, [3]⟩
def withRec : State := stored fun x => { x with arc := [aRec] }
def withLogs : State := stored fun x => { x with logs := [List.replicate 32 1, List.replicate 32 2, List.replicate 32 3], logFirst := 4 }

def stUn : State :=
  ringed ((stored id).setF nsCommonPage NS_STAT_state 1) 7 7 0x50 []

def stStat : State :=
  ringed (stored id) 7 7 0x50 []

def stModel : State :=
  ringed { stored id with gddr := imageCells } 7 7 0x51 ([15] ++ leBytes 4 144)

def stErase : State :=
  ringed (stored fun x => { x with models := [(15, some ⟨2, [], [], [], 0, []⟩)] }) 7 7 0x52 [15]

def stArc : State :=
  ringed (withRec.setF (ppSess 7) PP_SESS_CTRL_slot 2) 7 7 0x53 (leBytes 8 0 ++ leBytes 4 (2 ^ 20))

def stLog : State :=
  ringed withLogs 7 7 0x54 (leBytes 8 5 ++ leBytes 4 64)

/-- The hypotheses of StoreCommands are met, at the bounds of their ranges: 1 of 7 groups of clauses. -/
theorem test_witness_StoreCommands_1 :
    Safety.accepted stUn 7 0x50 = some (sentU ((stored id).setF nsCommonPage NS_STAT_state 1) 0x50 [], sentFrame 0x50 []) ∧
    stUn.halted = false ∧ stUn.mounted = false ∧ Safety.oneFrame stUn 7 :=
  ⟨sent_accepted ((stored id).setF nsCommonPage NS_STAT_state 1) 0x50 [] (by unfold Served; decide +kernel) (by decide +kernel) (by decide +kernel),
    by unfold Safety.oneFrame; decide +kernel⟩

/-- The hypotheses of StoreCommands are met, at the bounds of their ranges: 2 of 7 groups of clauses. -/
theorem test_witness_StoreCommands_2 :
    Safety.accepted stStat 7 0x50 = some (sentU (stored id) 0x50 [], sentFrame 0x50 []) ∧ stStat.halted = false ∧
    stStat.mounted = true ∧ Safety.oneFrame stStat 7 ∧ (sentU (stored id) 0x50 []).flushLog = (sentU (stored id) 0x50 []) :=
  ⟨sent_accepted (stored id) 0x50 [] (by unfold Served; decide +kernel) (by decide +kernel) (by decide +kernel),
    by refine ⟨?_, ?_, ?_, flushLog_empty _ (by rw [sentU_store]; rfl) (by rw [sentU_store]; rfl) (by rw [sentU_store]; rfl) (by rw [sentU_store]; rfl)⟩ <;> first | unfold Safety.oneFrame; decide +kernel | decide +kernel⟩

/-- The hypotheses of StoreCommands are met, at the bounds of their ranges: 3 of 7 groups of clauses. -/
theorem test_witness_StoreCommands_3 :
    Safety.accepted stModel 7 0x51 = some (sentU { stored id with gddr := imageCells } 0x51 ([15] ++ leBytes 4 144), sentFrame 0x51 ([15] ++ leBytes 4 144)) ∧
    stModel.halted = false ∧ stModel.mounted = true ∧ Safety.oneFrame stModel 7 ∧
    (sentU { stored id with gddr := imageCells } 0x51 ([15] ++ leBytes 4 144)).flushLog = (sentU { stored id with gddr := imageCells } 0x51 ([15] ++ leBytes 4 144)) :=
  ⟨sent_accepted { stored id with gddr := imageCells } 0x51 ([15] ++ leBytes 4 144) (by unfold Served; decide +kernel) (by decide +kernel) (by decide +kernel),
    by refine ⟨?_, ?_, ?_, flushLog_empty _ (by rw [sentU_store]; rfl) (by rw [sentU_store]; rfl) (by rw [sentU_store]; rfl) (by rw [sentU_store]; rfl)⟩ <;> first | unfold Safety.oneFrame; decide +kernel | decide +kernel⟩

/-- The hypotheses of StoreCommands are met, at the bounds of their ranges: 4 of 7 groups of clauses. -/
theorem test_witness_StoreCommands_4 :
    Safety.accepted stErase 7 0x52 = some (sentU (stored fun x => { x with models := [(15, some ⟨2, [], [], [], 0, []⟩)] }) 0x52 [15], sentFrame 0x52 [15]) ∧
    stErase.halted = false ∧ stErase.mounted = true ∧ Safety.oneFrame stErase 7 ∧
    (sentU (stored fun x => { x with models := [(15, some ⟨2, [], [], [], 0, []⟩)] }) 0x52 [15]).flushLog = (sentU (stored fun x => { x with models := [(15, some ⟨2, [], [], [], 0, []⟩)] }) 0x52 [15]) :=
  ⟨sent_accepted (stored fun x => { x with models := [(15, some ⟨2, [], [], [], 0, []⟩)] }) 0x52 [15] (by unfold Served; decide +kernel) (by decide +kernel) (by decide +kernel),
    by refine ⟨?_, ?_, ?_, flushLog_empty _ (by rw [sentU_store]; rfl) (by rw [sentU_store]; rfl) (by rw [sentU_store]; rfl) (by rw [sentU_store]; rfl)⟩ <;> first | unfold Safety.oneFrame; decide +kernel | decide +kernel⟩

/-- The hypotheses of StoreCommands are met, at the bounds of their ranges: 5 of 7 groups of clauses. -/
theorem test_witness_StoreCommands_5 :
    Safety.accepted stArc 7 0x53 = some (sentU (withRec.setF (ppSess 7) PP_SESS_CTRL_slot 2) 0x53 (leBytes 8 0 ++ leBytes 4 (2 ^ 20)), sentFrame 0x53 (leBytes 8 0 ++ leBytes 4 (2 ^ 20))) ∧
    stArc.halted = false ∧ stArc.mounted = true ∧ Safety.oneFrame stArc 7 ∧
    (sentU (withRec.setF (ppSess 7) PP_SESS_CTRL_slot 2) 0x53 (leBytes 8 0 ++ leBytes 4 (2 ^ 20))).flushLog = (sentU (withRec.setF (ppSess 7) PP_SESS_CTRL_slot 2) 0x53 (leBytes 8 0 ++ leBytes 4 (2 ^ 20))) :=
  ⟨sent_accepted (withRec.setF (ppSess 7) PP_SESS_CTRL_slot 2) 0x53 (leBytes 8 0 ++ leBytes 4 (2 ^ 20)) (by unfold Served; decide +kernel) (by decide +kernel) (by decide +kernel),
    by refine ⟨?_, ?_, ?_, flushLog_empty _ (by rw [sentU_store]; rfl) (by rw [sentU_store]; rfl) (by rw [sentU_store]; rfl) (by rw [sentU_store]; rfl)⟩ <;> first | unfold Safety.oneFrame; decide +kernel | decide +kernel⟩

/-- The hypotheses of StoreCommands are met, at the bounds of their ranges: 6 of 7 groups of clauses. -/
theorem test_witness_StoreCommands_6 :
    Safety.accepted stLog 7 0x54 = some (sentU withLogs 0x54 (leBytes 8 5 ++ leBytes 4 64), sentFrame 0x54 (leBytes 8 5 ++ leBytes 4 64)) ∧
    stLog.halted = false ∧ stLog.mounted = true ∧ Safety.oneFrame stLog 7 ∧
    (sentU withLogs 0x54 (leBytes 8 5 ++ leBytes 4 64)).flushLog = (sentU withLogs 0x54 (leBytes 8 5 ++ leBytes 4 64)) :=
  ⟨sent_accepted withLogs 0x54 (leBytes 8 5 ++ leBytes 4 64) (by unfold Served; decide +kernel) (by decide +kernel) (by decide +kernel),
    by unfold Safety.oneFrame; decide +kernel⟩

/-- The hypotheses of StoreCommands are met, at the bounds of their ranges: 7 of 7 groups of clauses. -/
theorem test_witness_StoreCommands_7 :
    le (frameBody (sentFrame 0x51 ([15] ++ leBytes 4 144))) 0 1 < 16 ∧
    le (frameBody (sentFrame 0x51 ([15] ++ leBytes 4 144))) 1 4 ≤ stModel.xferBytes ∧
    le (frameBody (sentFrame 0x51 ([15] ++ leBytes 4 144))) 1 4 = 64 + le (stModel.xferRd 0 64) 12 4 + le (stModel.xferRd 0 64) 8 4 + 60 ∧
    le (stModel.xferRd 0 64) 5 1 < 3 ∧ (stModel.owner 2).state ≠ 3 ∧ stModel.heldBlocks 1 - 0 + cdiv 1 64 ≤ stModel.quota 1 ∧
    (State.programPages 1 ((sentU { stored id with gddr := imageCells } 0x51 ([15] ++ leBytes 4 144)).closeBlk 1) 1).2 = some [0] ∧
    le (frameBody (sentFrame 0x52 [15])) 0 1 < 16 ∧
    le (frameBody (sentFrame 0x53 (leBytes 8 0 ++ leBytes 4 (2 ^ 20)))) 8 4 ≤ stArc.xferBytes ∧
    (stArc.arcTake (stArc.getF (ppSess 7) PP_SESS_CTRL_slot) (2 ^ 20) true (stArc.store.arc.filter fun x => decide (0 ≤ x.recNo))).2 = (1, 0, 1) ∧
    le (frameBody (sentFrame 0x54 (leBytes 8 5 ++ leBytes 4 64))) 8 4 ≤ stLog.xferBytes :=
  by decide +kernel

def unm : State :=
  (stored id).setF nsCommonPage NS_STAT_state 3

def unm3 : State :=
  unm.setF dvPage DV_BOOT_stage 3

def crop : State :=
  { stored (fun x => { x with crops := [⟨0xFF000, 1⟩, ⟨0, 1⟩] }) with gddr := memWrite [] 0xFF000 (leBytes 4 1 ++ [0, 2] ++ leBytes 2 1 ++ zeros 0x34 ++ leBytes 4 16 ++ List.replicate 16 3) }

def cropQ : State :=
  crop.setF nsCommonPage NS_ARC_STAT_queued 2

def marked : State :=
  stored fun x => { x with blocks := [(0, ⟨9, 3, 2, 0, 1, true, 0⟩), (1, ⟨4, 0, 0, 0, 0, false, 0⟩)] }

def worn : State :=
  stored fun x => { x with blocks := ((List.range 16).map fun i => (if i < 8 then i else 120 + i, ⟨500, 0, 0, 0, 0, false, 0⟩)).map fun e => if e.1 = 3 then (3, ⟨10, 2, 1, 0, 3, false, 0⟩) else if e.1 = 135 then (135, ⟨511, 0, 0, 0, 0, false, 0⟩) else e }

def scan : State :=
  stored fun x => { x with blocks := [(2, ⟨9, 1000, 2, 0, 3, false, 0⟩), (4, ⟨9, 500, 2, 0, 4, false, 0⟩)] }

/-- The hypotheses of StoreUpkeep are met, at the bounds of their ranges: 1 of 5 groups of clauses. -/
theorem test_witness_StoreUpkeep_1 :
    unm3.halted = false ∧ unm3.stage = 3 ∧ unm3.getF nsCommonPage NS_STAT_state ∈ ([0, 1, 3] : List Nat) ∧ unm3.store.dirSeq ≠ [] ∧
    unm3.mounted = false ∧ 0 < 2 ∧ 7 ∈ unm3.chanBlocks 0 ∧ 128 ∈ unm3.chanBlocks 1 :=
  by decide +kernel

/-- The hypotheses of StoreUpkeep are met, at the bounds of their ranges: 2 of 5 groups of clauses. -/
theorem test_witness_StoreUpkeep_2 :
    cropQ.halted = false ∧ cropQ.store.crops = ⟨0xFF000, 1⟩ :: [⟨0, 1⟩] ∧ cropQ.mounted = true ∧ cropQ.flushLog = cropQ ∧
    State.makeRoom (cropQ.store.arc.length + 1) cropQ (cdiv (1 * 4096) cropQ.pageBytes) = cropQ ∧ cropQ.quota 3 ≠ 0 ∧
    (State.programPages (cdiv (1 * 4096) cropQ.pageBytes) cropQ 3).2 = some [0] :=
  by decide +kernel

/-- The hypotheses of StoreUpkeep are met, at the bounds of their ranges: 3 of 5 groups of clauses. -/
theorem test_witness_StoreUpkeep_3 :
    marked.halted = false ∧ marked.mounted = true ∧ marked.nextFree = some 2 ∧
    marked.store.blocks.find? (fun e => e.2.marked && e.2.owner != 0 && e.2.owner != 4) = some (0, marked.blk 0) :=
  by decide +kernel

/-- The hypotheses of StoreUpkeep are met, at the bounds of their ranges: 4 of 5 groups of clauses. -/
theorem test_witness_StoreUpkeep_4 :
    worn.halted = false ∧ worn.mounted = true ∧ leastBy (fun i => (worn.blk i).erases) worn.nativeBlocks = some 3 ∧
    (worn.blk 3).erases + 500 < (worn.nativeBlocks.map fun i => (worn.blk i).erases).foldl max 0 ∧
    leastBy (fun i => (worn.blk i).erases) (worn.nativeBlocks.filter fun i => (worn.blk i).owner != 0) = some 3 ∧
    leastBy (fun i => 511 - (worn.blk i).erases) worn.freeBlocks = some 135 :=
  by decide +kernel

/-- The hypotheses of StoreUpkeep are met, at the bounds of their ranges: 5 of 5 groups of clauses. -/
theorem test_witness_StoreUpkeep_5 :
    scan.halted = false ∧ scan.mounted = true ∧ (scan.blk 2).bad = 0 ∧ (scan.blk 2).owner ≠ 0 ∧
    scan.prof 0x18 4 ≤ (scan.blk 2).reads ∧ (scan.blk 4).owner = 4 ∧ scan.prof 0x1C 4 ≤ (scan.blk 4).reads ∧ scan.psState ≠ 5 :=
  by decide +kernel

/-- A JOB_LOAD body for slot 3 in ranges, of index 15. -/
def load15 : List Byte := [15, 3, 0, 1] ++ zeros 12 ++ leBytes 4 64 ++ zeros 28

def jLoad : State :=
  ringed { owned with store := { owned.store with models := [] } } 7 7 0x73 load15

def jStopNone : State :=
  ringed owned 7 7 0x74 [3]

def jStop : State :=
  ringed (owned.setJob 3 (some sampleJob)) 7 7 0x74 [3]

def jDump : State :=
  ringed (on owned pcPage) 7 7 0x71 (leBytes 8 0x8000)

def jTrailer : State :=
  ringed (slot2.setF (ppSess 7) PP_SESS_CTRL_slot 2) 7 7 0x70 [31, 0, 1]

def jScrub : State :=
  ({ owned with spad := [(12 * 2 ^ 23, 5), (16 * 2 ^ 23 - 1, 6), (12 * 2 ^ 23 - 1, 7)] }).setJob 3 (some { sampleJob with stopping := true, stopRings := [7] })

def jScrubR : State :=
  jScrub.setRink 15 { RinkSt.idle with job := some 3 }

/-- The hypotheses of JobsDumpAndTrailer are met, at the bounds of their ranges: 1 of 4 groups of clauses. -/
theorem test_witness_JobsDumpAndTrailer_1 :
    Safety.accepted jLoad 7 0x73 = some (sentU { owned with store := { owned.store with models := [] } } 0x73 load15, sentFrame 0x73 load15) ∧
    jLoad.halted = false ∧
    (match (sentU { owned with store := { owned.store with models := [] } } 0x73 load15).loadTests (frameBody (sentFrame 0x73 load15)) with | .error e => decide (e = ⟨2, 0x0608, 0xFF, 0xFF, 0xFF⟩) | .ok _ => false) = true ∧
    codeScope 0x0608 < 3 :=
  ⟨sent_accepted { owned with store := { owned.store with models := [] } } 0x73 load15 (by unfold Served; decide +kernel) (by decide +kernel) (by decide +kernel),
    by decide +kernel⟩

/-- The hypotheses of JobsDumpAndTrailer are met, at the bounds of their ranges: 2 of 4 groups of clauses. -/
theorem test_witness_JobsDumpAndTrailer_2 :
    Safety.accepted jStopNone 7 0x74 = some (sentU owned 0x74 [3], sentFrame 0x74 [3]) ∧
    Safety.accepted jStop 7 0x74 = some (sentU (owned.setJob 3 (some sampleJob)) 0x74 [3], sentFrame 0x74 [3]) ∧
    jStopNone.halted = false ∧ jStopNone.job 3 = none ∧ Safety.oneFrame jStopNone 7 ∧ jStop.halted = false ∧
    le (frameBody (sentFrame 0x74 [3])) 0 1 = 3 ∧ jStop.job 3 = some sampleJob ∧ sampleJob.stopping = false :=
  ⟨sent_accepted owned 0x74 [3] (by unfold Served; decide +kernel) (by decide +kernel) (by decide +kernel),
    sent_accepted (owned.setJob 3 (some sampleJob)) 0x74 [3] (by unfold Served; decide +kernel) (by decide +kernel) (by decide +kernel),
    by unfold Safety.oneFrame; decide +kernel⟩

/-- The hypotheses of JobsDumpAndTrailer are met, at the bounds of their ranges: 3 of 4 groups of clauses. -/
theorem test_witness_JobsDumpAndTrailer_3 :
    Safety.accepted jDump 7 0x71 = some (sentU (on owned pcPage) 0x71 (leBytes 8 0x8000), sentFrame 0x71 (leBytes 8 0x8000)) ∧
    Safety.accepted jTrailer 7 0x70 = some (sentU (slot2.setF (ppSess 7) PP_SESS_CTRL_slot 2) 0x70 [31, 0, 1], sentFrame 0x70 [31, 0, 1]) ∧
    jDump.halted = false ∧ jDump.cnt.collect = none ∧ jTrailer.halted = false ∧
    le (frameBody (sentFrame 0x70 [31, 0, 1])) 0 2 = 31 ∧ Safety.oneFrame jTrailer 7 :=
  ⟨sent_accepted (on owned pcPage) 0x71 (leBytes 8 0x8000) (by unfold Served; decide +kernel) (by decide +kernel) (by decide +kernel),
    sent_accepted (slot2.setF (ppSess 7) PP_SESS_CTRL_slot 2) 0x70 [31, 0, 1] (by unfold Served; decide +kernel) (by decide +kernel) (by decide +kernel),
    by unfold Safety.oneFrame; decide +kernel⟩

/-- The hypotheses of JobsDumpAndTrailer are met, at the bounds of their ranges: 4 of 4 groups of clauses. -/
theorem test_witness_JobsDumpAndTrailer_4 :
    jScrubR.halted = false ∧ jScrubR.job 3 = some { sampleJob with stopping := true, stopRings := [7] } ∧ 15 ∈ jScrubR.rinksOf 3 :=
  by decide +kernel

/-- A machine as node 1 with port 2 in a state; its port beside the registers. -/
def tzOn (s : State) (st : Nat) (f : TzPortSt → TzPortSt) : State :=
  let s := ((on { s with woDone := [tzCommonPage + 0x40] } (tzPort 2)).setF tzCommonPage TZ_CFG_node 1).setF tzCommonPage TZ_NODES_route 0xFF
  (s.setF (tzPort 2) TZ_PORT_STAT_state st).setTz 2 (f TzPortSt.idle)
def tzs (st : Nat) (f : TzPortSt → TzPortSt) : State := tzOn up st f
/-- The same port UP to node 3, with credits. -/
def tzUpOn (s : State) (f : TzPortSt → TzPortSt) : State :=
  ((tzOn s 2 fun x => f { x with credits := [1, 1, 1] }).setF tzCommonPage TZ_NODES_route 0xBF).setF (tzPort 2) TZ_PORT_STAT_peer 3
def tzUp (f : TzPortSt → TzPortSt) : State := tzUpOn up f
def flit7 (seq : Nat) : List Byte := leBytes 2 (0x1000 + seq) ++ zeros 254
/-- Packets from node 3 to node 1: a WRITE to window 255, its answers, a column part for rink 15's slot 3, and a credit. -/
def pkWrite : List Byte := tzPacket 1 1 3 0 9 0x7FC0000000000000 block64
def pkRsp (code : Nat) : List Byte := tzPacket 2 1 3 1 0xF00000 code []
def pkHalo (off : Nat) : List Byte := tzPacket 3 1 3 0 0 (15 + 3 * 16 + off * 256) block64
def pkCred : List Byte := tzPacket 4 1 3 2 0 0xFF []
def withDma (s : State) : State := (s.setDma 15 ⟨7, true, 0⟩).setF (dmCh 15) DM_SLOTn_CNT_count 64 7

def tzDown0 : State :=
  tzs 0 id

def tzTrainS : State :=
  tzs 1 id

def tzLate : State :=
  { tzTrainS with time := { tzTrainS.time with elapsed := 10000000 * 2 ^ 32 } }

def tzU : State :=
  tzUp id

def tzQuiet : State :=
  { tzU with time := { tzU.time with elapsed := 2000 * 2 ^ 32 } }

def tzSeq : State :=
  tzUp fun x => { x with rxSeq := 4095 }

def tzNak : State :=
  tzUp fun x => { x with unacked := [⟨4095, [1], 7⟩], nakd := true }

def tzNak8 : State :=
  tzUp fun x => { x with unacked := [⟨4095, [1], 8⟩], nakd := true }

def tzW : State :=
  tzUpOn (((winS 1).setF (winPage 255) WN_CTRL_kind 1 63).setF (winPage 255) WN_CTRL_nodes 8 63) fun x => { x with rxq := [pkWrite] }

def tzR : State :=
  withDma (tzUp fun x => { x with rxq := [pkRsp 0], writes := [(0xF00000, 15)] })

def tzRbad : State :=
  withDma (tzUp fun x => { x with rxq := [pkRsp 0x0302], writes := [(0xF00000, 15)] })

def tzHaloS (off : Nat) : State := tzUpOn (rinkSt 2 id) fun x => { x with rxq := [pkHalo off] }
def tzCredS : State := tzUpOn (rinkSt 2 id) fun x => { x with rxq := [pkCred] }

/-- The hypotheses of TuzerPorts are met, at the bounds of their ranges: 1 of 7 groups of clauses. -/
theorem test_witness_TuzerPorts_1 :
    Safety.Admitted tzDown0 .host (tzPort 2) 0x40 ∧ bit (1 : Word).toNat 0 = true ∧ tzDown0.tzState 2 = 0 ∧
    tzDown0.nodeSet = true ∧ tzDown0.enabled (tzPort 2) = true ∧ Safety.Admitted tzU .host (tzPort 2) 0x40 ∧
    bit (0 : Word).toNat 0 = false ∧ tzU.tzState 2 = 2 ∧ tzU.enabled (tzPort 2) = true :=
  by unfold Safety.Admitted; decide +kernel

/-- The hypotheses of TuzerPorts are met, at the bounds of their ranges: 2 of 7 groups of clauses. -/
theorem test_witness_TuzerPorts_2 :
    tzTrainS.halted = false ∧ tzTrainS.tzState 2 = 1 ∧ (3 : Fin 4).val ≠ tzTrainS.node ∧ tzTrainS.routeTo 3 = none ∧
    tzLate.halted = false ∧ tzLate.tzState 2 = 1 ∧ (tzLate.tz 2).since + 10000000 * 2 ^ 32 ≤ tzLate.time.elapsed ∧
    tzU.halted = false ∧ tzQuiet.tzState 2 = 2 ∧ (tzQuiet.tz 2).lastGood + 2000 * 2 ^ 32 ≤ tzQuiet.time.elapsed :=
  by decide +kernel

/-- The hypotheses of TuzerPorts are met, at the bounds of their ranges: 3 of 7 groups of clauses. -/
theorem test_witness_TuzerPorts_3 :
    tzSeq.halted = false ∧ tzSeq.tzState 2 = 2 ∧ (flit7 4095).length = 256 ∧ (tzSeq.tz 2).txq = [] ∧ flitType (flit7 4095) = 1 ∧
    flitSeq (flit7 4095) = (tzSeq.tz 2).rxSeq ∧ flitSeq (flit7 0) ≠ (tzSeq.tz 2).rxSeq ∧ (tzNak.tz 2).unacked ≠ [] ∧
    (tzNak.tz 2).nakd = true ∧ tzNak.tzState 2 = 2 ∧ ((tzNak.tz 2).unacked.all fun u => decide (u.replays < 8)) = true ∧
    ((tzNak8.tz 2).unacked.any fun u => decide (8 ≤ u.replays)) = true ∧ tzNak8.tzState 2 = 2 :=
  by decide +kernel

/-- The hypotheses of TuzerPorts are met, at the bounds of their ranges: 4 of 7 groups of clauses. -/
theorem test_witness_TuzerPorts_4 :
    (tzW.tz 2).rxq.find? (fun q => pktType q == 1) = some pkWrite ∧ tzW.halted = false ∧
    ((tzW.setTz 2 { tzW.tz 2 with rxq := [] }).winWrite 3 (le pkWrite 8 8) (pkWrite.drop 16)).2 = 0 ∧
    tzW.routeTo (bits (le pkWrite 1 1) 3 2) = some 2 ∧ (tzW.tz 2).txq = [] ∧ 1 ≤ (tzW.tz 2).credits.getD 1 0 ∧
    (tzW.tz 2).unacked.length < 64 :=
  by decide +kernel

/-- The hypotheses of TuzerPorts are met, at the bounds of their ranges: 5 of 7 groups of clauses. -/
theorem test_witness_TuzerPorts_5 :
    (tzR.tz 2).rxq.find? (fun q => pktType q == 2) = some (pkRsp 0) ∧ tzR.halted = false ∧
    (tzR.tz 2).writes.find? (fun e => e.1 == le (pkRsp 0) 4 4) = some (0xF00000, 15) ∧ (tzR.dmaRun 15).slot < 8 ∧
    bits (le (pkRsp 0) 8 8) 15 0 = 0 ∧ (tzRbad.tz 2).rxq.find? (fun q => pktType q == 2) = some (pkRsp 0x0302) ∧
    bits (le (pkRsp 0x0302) 8 8) 15 0 ≠ 0 ∧ tzRbad.halted = false ∧ (tzRbad.dmaRun 15).slot < 8 ∧
    (tzRbad.tz 2).writes.find? (fun e => e.1 == le (pkRsp 0x0302) 4 4) = some (0xF00000, 15) :=
  by decide +kernel

/-- The hypotheses of TuzerPorts are met, at the bounds of their ranges: 6 of 7 groups of clauses. -/
theorem test_witness_TuzerPorts_6 :
    ((tzHaloS 0).tz 2).rxq.find? (fun q => pktType q == 3) = some (pkHalo 0) ∧ (tzHaloS 0).halted = false ∧
    ((tzHaloS 0).group (bits (le (pkHalo 0) 8 8) 3 0)).halos[bits (le (pkHalo 0) 4 4) 7 4]? = some halo0 ∧
    (tzHaloS 0).domState 3 = 0 ∧ bits (le (pkHalo 0) 8 8) 31 8 + ((pkHalo 0).length - 16) < haloSlot halo0 ∧
    bits (le (pkHalo 64) 8 8) 31 8 + ((pkHalo 64).length - 16) = haloSlot halo0 ∧
    ((tzHaloS 64).tz 2).rxq.find? (fun q => pktType q == 3) = some (pkHalo 64) :=
  by decide +kernel

/-- The hypotheses of TuzerPorts are met, at the bounds of their ranges: 7 of 7 groups of clauses. -/
theorem test_witness_TuzerPorts_7 :
    (tzCredS.tz 2).rxq.find? (fun q => pktType q == 4) = some pkCred ∧ tzCredS.halted = false ∧ tzCredS.domState (15 / 4) = 0 :=
  by decide +kernel

/-- An LMS signature of height 5 with Winternitz 8 whose hashes are all zero, and the owner key that it verifies a message under. -/
def zeroSig : List Byte := zeros 4 ++ beBytes 4 4 ++ zeros 1120 ++ beBytes 4 5 ++ zeros 160
def zeroKey (msg : List Byte) : List Byte := keyOf 5 4 (zeros 16) (lmsCandidate (zeros 16) 8 34 0 5 zeroSig msg)

theorem zeroKey_signs (msg : List Byte) : hssVerify (zeroKey msg) (beBytes 4 0 ++ zeroSig) msg = true :=
  hssVerify_candidate 5 4 8 34 0 5 (zeros 16) zeroSig msg rfl rfl (by decide) (by decide) (by decide)
    (by decide +kernel) (by decide +kernel) (by decide +kernel) (by decide +kernel)

theorem zeroKey_length (msg : List Byte) : (zeroKey msg).length = 60 := by
  simp [zeroKey, keyOf, lmsCandidate_length]

theorem zeroKey_params (msg : List Byte) : State.ownerKeyOk (zeroKey msg) = true := by
  unfold State.ownerKeyOk zeroKey keyOf
  generalize zeros 16 ++ lmsCandidate (zeros 16) 8 34 0 5 zeroSig msg = rest
  have e (o : Nat) (h : o + 4 ≤ 12) : sub (beBytes 4 1 ++ (beBytes 4 5 ++ (beBytes 4 4 ++ rest))) o 4 =
      sub (beBytes 4 1 ++ (beBytes 4 5 ++ beBytes 4 4)) o 4 := by
    rw [← List.append_assoc (beBytes 4 5), ← List.append_assoc (beBytes 4 1)]
    exact sub_append_left _ _ _ _ (by simpa using h)
  simp only [e 0 (by decide), e 4 (by decide), e 8 (by decide)]
  decide

/-- A machine whose owner slot 2 is valid with the key that signs command `op` with these parameters, and whose session 7 has nonce zero,
and the authorised command. -/
def authMsg (op : Nat) (pre : List Byte) : List Byte :=
  ascii "AX9160 OWNER" ++ leBytes 2 op ++ (sha256 []).take 16 ++ zeros 32 ++ pre
def authBase (s : State) (op : Nat) (pre : List Byte) : State :=
  let slot : OwnerSlot := { state := 1, hash := sha256 (zeroKey (authMsg op pre)), kOwner := zeros 32, ceiling := 63 }
  let sec := { s.sec with idPub := [], slots := [.empty, .empty, slot] }
  (({ s with sec := sec }).setSess 7 { SessSt.closed with nonce := some (zeros 32, 0) }).setF (ppSess 7) PP_SESS_CTRL_slot 2
def authBody (op : Nat) (pre : List Byte) : List Byte := pre ++ ([2, 0, 0, 0] ++ (zeroKey (authMsg op pre) ++ (beBytes 4 0 ++ zeroSig)))
def authS (s : State) (op : Nat) (pre : List Byte) : State := ringed (authBase s op pre) 7 7 op (authBody op pre)
def authU (s : State) (op : Nat) (pre : List Byte) : State := sentU (authBase s op pre) op (authBody op pre)
def authFrame (op : Nat) (pre : List Byte) : List Byte := sentFrame op (authBody op pre)

theorem authBody_length (op : Nat) (pre : List Byte) : (authBody op pre).length = pre.length + 1360 := by
  have : zeroSig.length = 1292 := by decide +kernel
  simp [authBody, zeroKey_length, this]
theorem authFrame_body (op : Nat) (pre : List Byte) : frameBody (authFrame op pre) = authBody op pre := sentFrame_body _ _
theorem authS_sec (s : State) (op : Nat) (pre : List Byte) : { (authS s op pre).sec with sess := (authBase s op pre).sec.sess } =
    (authBase s op pre).sec := ringed_sec _ _ _
theorem authS_slots (s : State) (op : Nat) (pre : List Byte) : (authS s op pre).sec.slots =
    [.empty, .empty, { state := 1, hash := sha256 (zeroKey (authMsg op pre)), kOwner := zeros 32, ceiling := 63 }] := by
  have h := congrArg SecSt.slots (authS_sec s op pre)
  exact h
theorem authS_policy (s : State) (op : Nat) (pre : List Byte) :
    (authS s op pre).sec.policy = s.sec.policy ∧ (authS s op pre).sec.policyCtr = s.sec.policyCtr := by
  have h := congrArg SecSt.policy (authS_sec s op pre)
  have g := congrArg SecSt.policyCtr (authS_sec s op pre)
  exact ⟨h, g⟩
theorem authS_id (s : State) (op : Nat) (pre : List Byte) : (authS s op pre).sec.idPub = [] := by
  have h := congrArg SecSt.idPub (authS_sec s op pre)
  exact h
theorem authU_sec (s : State) (op : Nat) (pre : List Byte) : (authU s op pre).sec = (authS s op pre).sec := sentU_sec _ _ _
theorem authU_time (s : State) (op : Nat) (pre : List Byte) : (authU s op pre).time = s.time := by
  have h : (authBase s op pre).time = s.time := rfl
  exact (sentU_time _ _ _).trans h
theorem authU_store (s : State) (op : Nat) (pre : List Byte) : (authU s op pre).store = s.store := by
  have h : (authBase s op pre).store = s.store := rfl
  exact (sentU_store _ _ _).trans h

/-- The frame is accepted, and its authorisation is. -/
theorem auth_accepted (s : State) (op : Nat) (pre : List Byte) (served : Served (authS s op pre))
    (nonce : ((authS s op pre).sess 7).nonce = some (zeros 32, 0)) (time : s.time.elapsed < 60 * second)
    (hop : op < 2 ^ 16 ∧ opKnown op = true ∧ (opRight op).all (bit 63) = true) (hl : pre.length ≤ 100) :
    Safety.accepted (authS s op pre) 7 op = some (authU s op pre, authFrame op pre) ∧
      ∃ v, (authU s op pre).authorised 7 (authFrame op pre) pre.length = (some 2, v) := by
  refine ⟨sent_accepted (authBase s op pre) op (authBody op pre) served hop (by rw [authBody_length]; omega), ?_⟩
  have us := authU_sec s op pre
  have owner : (authU s op pre).owner 2 = { state := 1, hash := sha256 (zeroKey (authMsg op pre)), kOwner := zeros 32, ceiling := 63 } := by
    unfold State.owner; rw [us, authS_slots]; rfl
  have id : (authU s op pre).deviceId = (sha256 []).take 16 := by unfold State.deviceId; rw [us, authS_id]
  refine ⟨_, Prod.ext (authorised_eq _ 7 pre.length 2 0 _ pre [2, 0, 0, 0] (zeroKey (authMsg op pre)) (beBytes 4 0 ++ zeroSig)
    (zeros 32) (authFrame_body op pre) rfl rfl (by decide) (zeroKey_length _) ?_ (by decide) ?_ ?_ (zeroKey_params _) ?_ ?_) rfl⟩
  · unfold State.sess; rw [us]; exact nonce
  · rw [owner]
  · rw [owner]
  · have hopf : frameOp (authFrame op pre) = op := sentFrame_op _ _ hop.1
    rw [hopf, id]; exact zeroKey_signs _
  · rw [authU_time]; omega

/-- The owner's machine: KEYSTATE policy 2. -/
def authOwned : State := { owned with sec := { owned.sec with policy := 2, policyCtr := 0 } }

/-- OWNER_REVOKE of slot 2 by its own owner meets its hypotheses. -/
theorem test_witness_OwnerCommands_revoke :
    let s := authS authOwned 0x62 [2]; let f := authFrame 0x62 [2]
    ∃ u v, Safety.accepted s 7 0x62 = some (u, f) ∧ u.authorised 7 f 1 = (some 2, v) ∧ s.halted = false ∧
      le (frameBody f) 0 1 = 2 ∧ u.sec.slots.length = 3 ∧ (u.owner 2).state = 1 ∧ u.store.xferSess = none := by
  obtain ⟨a, v, b⟩ := auth_accepted authOwned 0x62 [2] (by unfold Served; decide +kernel) (by decide +kernel)
    (by decide +kernel) (by decide +kernel) (by decide)
  refine ⟨_, v, a, b, by decide +kernel, ?_, ?_, ?_, ?_⟩
  · rw [authFrame_body]; rfl
  · rw [authU_sec, authS_slots]; rfl
  · unfold State.owner; rw [authU_sec, authS_slots]; rfl
  · rw [authU_store]; rfl

/-- POLICY_SET of policy 3 with the first counter meets its hypotheses. -/
theorem test_witness_OwnerCommands_policy :
    let s := authS authOwned 0x64 (leBytes 4 3 ++ leBytes 4 1); let f := authFrame 0x64 (leBytes 4 3 ++ leBytes 4 1)
    ∃ u v, Safety.accepted s 7 0x64 = some (u, f) ∧ u.authorised 7 f 8 = (some 2, v) ∧ s.halted = false ∧
      s.sec.policyCtr < le (frameBody f) 4 4 := by
  obtain ⟨a, v, b⟩ := auth_accepted authOwned 0x64 (leBytes 4 3 ++ leBytes 4 1) (by unfold Served; decide +kernel) (by decide +kernel)
    (by decide +kernel) (by decide +kernel) (by decide)
  refine ⟨_, v, a, b, by decide +kernel, ?_⟩
  rw [(authS_policy _ _ _).2, authFrame_body, le, show sub _ 4 4 = leBytes 4 1 from rfl]
  decide

/-- MEM_POLICY meets its hypotheses. -/
theorem test_witness_OwnerCommands_memory :
    let s := authS authOwned 0x72 [1]; let f := authFrame 0x72 [1]
    ∃ u v, Safety.accepted s 7 0x72 = some (u, f) ∧ u.authorised 7 f 1 = (some 2, v) ∧ s.halted = false ∧ le (frameBody f) 0 1 ≤ 1 := by
  obtain ⟨a, v, b⟩ := auth_accepted authOwned 0x72 [1] (by unfold Served; decide +kernel) (by decide +kernel)
    (by decide +kernel) (by decide +kernel) (by decide)
  refine ⟨_, v, a, b, by decide +kernel, ?_⟩
  rw [authFrame_body, le, show sub _ 0 1 = [1] from rfl]
  decide

/-- A DEBUG_UNLOCK of every rink for a day by the owner of slot 2. -/
def unlockPre : List Byte :=
  leBytes 4 0x54445841 ++ leBytes 2 1 ++ leBytes 2 0xFFFF ++ ((sha256 []).take 16 ++ (zeros 32 ++ (leBytes 4 86400 ++ zeros 4)))
theorem unlockPre_length : unlockPre.length = 64 := by simp [unlockPre]
theorem unlockPre_sub (o n : Nat) (h : 24 ≤ o) : sub (authBody 0x66 unlockPre) o n =
    sub (zeros 32 ++ (leBytes 4 86400 ++ zeros 4) ++ ([2, 0, 0, 0] ++ (zeroKey (authMsg 0x66 unlockPre) ++ (beBytes 4 0 ++ zeroSig)))) (o - 24) n := by
  have e : authBody 0x66 unlockPre = (leBytes 4 0x54445841 ++ leBytes 2 1 ++ leBytes 2 0xFFFF ++ (sha256 []).take 16) ++
      (zeros 32 ++ (leBytes 4 86400 ++ zeros 4) ++ ([2, 0, 0, 0] ++ (zeroKey (authMsg 0x66 unlockPre) ++ (beBytes 4 0 ++ zeroSig)))) := by
    unfold authBody
    generalize zeroKey (authMsg 0x66 unlockPre) ++ (beBytes 4 0 ++ zeroSig) = tail
    simp only [unlockPre, List.append_assoc]
  have l : (leBytes 4 0x54445841 ++ leBytes 2 1 ++ leBytes 2 0xFFFF ++ (sha256 []).take 16).length = 24 := by simp
  rw [e, sub_append_right _ _ _ _ (by omega), l]
theorem unlockPre_id : sub (authBody 0x66 unlockPre) 8 16 = (sha256 []).take 16 := by
  have e := sub_append_piece (leBytes 4 0x54445841 ++ leBytes 2 1 ++ leBytes 2 0xFFFF) ((sha256 []).take 16)
    (zeros 32 ++ (leBytes 4 86400 ++ zeros 4) ++ ([2, 0, 0, 0] ++ (zeroKey (authMsg 0x66 unlockPre) ++ (beBytes 4 0 ++ zeroSig))))
  have l : ((sha256 []).take 16).length = 16 := by simp
  rw [l] at e
  unfold authBody
  generalize zeroKey (authMsg 0x66 unlockPre) ++ (beBytes 4 0 ++ zeroSig) = tail at e ⊢
  simpa [unlockPre, List.append_assoc] using e

/-- It meets its hypotheses. -/
theorem test_witness_QuotesSignaturesAndDebug_unlock :
    let s := authS authOwned 0x66 unlockPre; let f := authFrame 0x66 unlockPre
    ∃ u v, Safety.accepted s 7 0x66 = some (u, f) ∧ u.authorised 7 f 64 = (some 2, v) ∧ s.halted = false ∧ bit s.sec.policy 1 = true ∧
      (u.sess 7).nonce = some (sub (frameBody f) 0x18 32, 0) ∧ le (frameBody f) 0 4 = 0x54445841 ∧ le (frameBody f) 4 2 = 1 ∧
      sub (frameBody f) 8 16 = s.deviceId ∧ le (frameBody f) 0x3C 4 = 0 ∧ le (frameBody f) 0x38 4 = 86400 ∧
      s.flag scPage SC_DBG_unlocked = false := by
  have h : ((authS authOwned 0x66 unlockPre).sess 7).nonce = some (zeros 32, 0) := by decide +kernel
  obtain ⟨a, v, b⟩ := auth_accepted authOwned 0x66 unlockPre (by unfold Served; decide +kernel) (by decide +kernel)
    (by decide +kernel) (by decide +kernel) (by rw [unlockPre_length]; decide)
  rw [unlockPre_length] at b
  refine ⟨_, v, a, b, by decide +kernel, ?_, ?_, ?_, ?_, ?_, ?_, ?_, by decide +kernel⟩
  · rw [(authS_policy _ _ _).1]; decide
  · rw [authFrame_body, unlockPre_sub 0x18 32 (by decide), State.sess, authU_sec]
    refine h.trans ?_
    congr 2
  · rw [authFrame_body, le, show sub _ 0 4 = leBytes 4 0x54445841 from rfl]; decide
  · rw [authFrame_body, le, show sub _ 4 2 = leBytes 2 1 from rfl]; decide
  · rw [authFrame_body, unlockPre_id, State.deviceId, authS_id]
  · rw [authFrame_body, le, unlockPre_sub 0x3C 4 (by decide)]; decide
  · rw [authFrame_body, le, unlockPre_sub 0x38 4 (by decide)]; decide

/-- The body of a job image: the program of every rink, one group whose core 0 runs one CELL_END, and a plan block of one domain with
one piste of one cell at logical rink 3: stream 31, verdict ring 31. -/
def jobBody : List Byte :=
  ([1, 1, 0, 0, 1] ++ zeros 59) ++
  ([1, 0, 0, 0, 3] ++ zeros 11 ++ leBytes 8 (5 + 2 ^ 32) ++ zeros 104) ++
  (zeros 64 ++ [1] ++ zeros 63) ++
  (leBytes 8 (instr 5 none none 0) ++ zeros 56) ++
  ([1, 1, 1, 0, 1, 0, 0, 0] ++ zeros 4 ++ leBytes 4 16000 ++ zeros 4 ++ leBytes 4 0x40 ++ zeros 8 ++ leBytes 4 0x110 ++ zeros 28) ++
  ([1, 1, 1] ++ zeros 13 ++ leBytes 4 5000 ++ zeros 44) ++
  ((List.range 3).flatMap fun _ => [0, 0, 1, 1] ++ leBytes 4 64 ++ leBytes 4 8 ++ zeros 7 ++ [1, 0xFF] ++ zeros 11) ++
  ([1, 0, 1, 1] ++ leBytes 4 64 ++ leBytes 4 72 ++ zeros 7 ++ [1, 0xFF] ++ zeros 11) ++
  ([0, 3, 0, 0, 0, 0, 64, 0] ++ leBytes 4 5000 ++ zeros 4) ++
  [31, 31, 0, 1, 1, 0, 0, 0]
/-- Its envelope, as an owner signed it for slot 2, and the image that MODELS holds. -/
def jobEnv : List Byte :=
  leBytes 4 0x424A5841 ++ [1, 2, 0, 0] ++ leBytes 4 664 ++ leBytes 4 1296 ++ (sha256 jobBody ++ zeros 16)
def jobOwner : OwnerSlot := { state := 1, hash := sha256 (zeroKey jobEnv), kOwner := zeros 32, ceiling := 63 }
def jobKey0 : List Byte := hkdf [] jobOwner.hash (ascii "AX9160 MODEL") 32
def jobBox : List Byte × List Byte := gcmEnc jobKey0 (leBytes 8 6 ++ zeros 4) jobEnv jobBody
def jobImg : ModelImg := ⟨2, jobEnv ++ (beBytes 4 0 ++ zeroSig ++ zeroKey jobEnv), jobBox.1, jobBox.2, 6, []⟩
/-- A machine that holds it in index 15, stream 31 with stripes of 64 × 16 pixels each 16 µs, and the command that loads it. -/
def jobBase : State :=
  let t := stored fun x => { x with models := [(15, some jobImg)] }
  let s := { t with sec := { t.sec with slots := [.empty, .empty, jobOwner] } }
  ((((s.setWord (feStrm 31 + 0x44) 0x10040).setWord (feStrm 31 + 0x50) 0).setF (feStrm 31) FE_STRM_LPER_period_ns 1000).setF
    (pxVr 31) PX_VR_CFG_en 1)
def jobLoadBody : List Byte :=
  [15, 3, 8, 1] ++ zeros 4 ++ leBytes 4 384 ++ leBytes 4 0 ++ leBytes 4 384 ++ zeros 28
def jobS : State := ringed jobBase 7 7 0x73 jobLoadBody

theorem jobBox_opens : gcmDec jobKey0 (leBytes 8 6 ++ zeros 4) jobEnv jobBox.1 jobBox.2 = some jobBody :=
  gcmDec_gcmEnc _ _ _ _ (hkdf_length _ _ _)

theorem jobEnv_length : jobEnv.length = 64 := by simp [jobEnv]
theorem jobEnv_head (o n : Nat) (h : o + n ≤ 16) :
    sub jobEnv o n = sub (leBytes 4 0x424A5841 ++ [1, 2, 0, 0] ++ leBytes 4 664 ++ leBytes 4 1296) o n := by
  unfold jobEnv
  exact sub_append_left _ _ _ _ (by simpa using h)
theorem jobEnv_digest : sub jobEnv 0x10 32 = sha256 jobBody := by
  have e := sub_append_piece (leBytes 4 0x424A5841 ++ [1, 2, 0, 0] ++ leBytes 4 664 ++ leBytes 4 1296) (sha256 jobBody) (zeros 16)
  rw [sha256_length] at e
  exact e
theorem jobEnv_tail : sub jobEnv 0x30 16 = zeros 16 := by
  have e := sub_append_piece (leBytes 4 0x424A5841 ++ [1, 2, 0, 0] ++ leBytes 4 664 ++ leBytes 4 1296 ++ sha256 jobBody) (zeros 16) []
  simpa [jobEnv] using e

theorem job_image (s : State) (hm : s.mounted = true) (ho : s.owner 2 = jobOwner) (hd : s.sec.dus = [])
    (hx : s.modelAt 15 = some jobImg) : s.loadImage (parseLoad jobLoadBody) = (0, jobBody) := by
  have l := jobEnv_length
  have idx : (parseLoad jobLoadBody).index = 15 := by decide +kernel
  have k : s.kModel 2 = jobKey0 := by unfold State.kModel jobKey0; rw [ho, hd]
  have ls : (beBytes 4 0 ++ zeroSig).length = 1296 := by decide +kernel
  have t : jobImg.clear.take 64 = jobEnv := List.take_left' l
  have sg : le jobEnv 12 4 = 1296 := by
    rw [le, jobEnv_head 12 4 (by decide), show sub _ 12 4 = leBytes 4 1296 from rfl]; decide
  have pub : sub jobImg.clear (64 + 1296) 60 = zeroKey jobEnv := by
    rw [show jobImg.clear = jobEnv ++ (beBytes 4 0 ++ zeroSig ++ zeroKey jobEnv) from rfl]
    have e := sub_append_piece (jobEnv ++ (beBytes 4 0 ++ zeroSig)) (zeroKey jobEnv) []
    rw [List.length_append, l, ls, zeroKey_length] at e
    rwa [List.append_nil, List.append_assoc] at e
  have sig : sub jobImg.clear 64 1296 = beBytes 4 0 ++ zeroSig := by
    have e := sub_append_piece jobEnv (beBytes 4 0 ++ zeroSig) (zeroKey jobEnv)
    rw [l, ls] at e
    exact e
  have e0 : le jobEnv 0 4 = 0x424A5841 := by
    rw [le, jobEnv_head 0 4 (by decide), show sub _ 0 4 = leBytes 4 0x424A5841 from rfl]; decide
  have e4 : le jobEnv 4 1 = 1 := by rw [le, jobEnv_head 4 1 (by decide), show sub _ 4 1 = [1] from rfl]; decide
  have e6 : allZero jobEnv 6 2 = true := by
    unfold allZero; rw [jobEnv_head 6 2 (by decide)]; decide
  have e30 : allZero jobEnv 0x30 16 = true := by
    unfold allZero; rw [jobEnv_tail]; decide
  have st : jobOwner.state = 1 := rfl
  have hh : sha256 (zeroKey jobEnv) = jobOwner.hash := by simp only [jobOwner]
  have open' := jobBox_opens
  have i1 : jobImg.slot = 2 := by simp only [jobImg]
  have i2 : jobImg.ct = jobBox.1 := by simp only [jobImg]
  have i3 : jobImg.tag = jobBox.2 := by simp only [jobImg]
  have i4 : jobImg.ctr = 6 := by simp only [jobImg]
  unfold State.loadImage
  rw [idx, hx]
  dsimp only
  rw [hm, i1, i2, i3, i4, ho, t, sg, pub, sig, e0, e4, e6, e30, k, zeroKey_params, zeroKey_signs, jobEnv_digest, hh, open']
  simp [st]

/-- The frame of the load, and the state once the Puppeteer has taken it. -/
def jobF : List Byte := sentFrame 0x73 jobLoadBody
def jobU : State := sentU jobBase 0x73 jobLoadBody
theorem jobBase_sec : jobBase.sec.slots = [.empty, .empty, jobOwner] ∧ jobBase.sec.dus = [] := by
  unfold jobBase
  dsimp only [State.setF, State.setWord]
  generalize jobOwner = o
  exact ⟨rfl, rfl⟩
theorem jobBase_models : jobBase.store.models = [(15, some jobImg)] := by
  unfold jobBase stored
  dsimp only [State.setF, State.setWord]
theorem sent_slots (s : State) (op : Nat) (body : List Byte) : (sentU s op body).sec.slots = s.sec.slots := by
  rw [sentU_sec]
  have h := congrArg SecSt.slots (ringed_sec s op body)
  exact h
theorem sent_dus (s : State) (op : Nat) (body : List Byte) : (sentU s op body).sec.dus = s.sec.dus := by
  rw [sentU_sec]
  have h := congrArg SecSt.dus (ringed_sec s op body)
  exact h
theorem jobU_sec : jobU.sec.slots = [.empty, .empty, jobOwner] ∧ jobU.sec.dus = [] := by
  unfold jobU
  rw [sent_slots, sent_dus]
  exact jobBase_sec
theorem jobU_store : jobU.store.models = [(15, some jobImg)] := by
  unfold jobU
  rw [sentU_store]
  exact jobBase_models

/-- The tests after the image pass. -/
theorem job_checks : (match jobU.loadChecks (parseLoad jobLoadBody) jobBody with | .ok _ => true | .error _ => false) = true := by
  decide +kernel

theorem jobF_body : frameBody jobF = jobLoadBody := sentFrame_body _ _
theorem job_taken : Safety.accepted jobS 7 0x73 = some (jobU, jobF) :=
  sent_accepted jobBase 0x73 jobLoadBody (by unfold Served; decide +kernel) (by decide +kernel) (by decide +kernel)
theorem job_ranges : jobU.loadRanges jobLoadBody = true := by decide +kernel
theorem job_fits : decide (jobU.gddrEnd ≤ 64 * (parseLoad jobLoadBody).loadBase) = false := by decide +kernel
theorem jobU_owner : jobU.owner 2 = jobOwner := by unfold State.owner; rw [jobU_sec.1]; rfl
theorem jobU_model : jobU.modelAt 15 = some jobImg := by unfold State.modelAt; rw [jobU_store]; rfl
theorem jobU_image : jobU.loadImage (parseLoad jobLoadBody) = (0, jobBody) :=
  job_image jobU (by decide +kernel) jobU_owner jobU_sec.2 jobU_model

/-- A JOB_LOAD that passes every test meets its hypotheses. -/
theorem test_witness_JobsDumpAndTrailer_load :
    ∃ u f d, Safety.accepted jobS 7 0x73 = some (u, f) ∧ u.loadTests (frameBody f) = .ok d ∧ jobS.halted = false := by
  have checks := job_checks
  cases e : jobU.loadChecks (parseLoad jobLoadBody) jobBody with
  | error x => rw [e] at checks; cases checks
  | ok d =>
    refine ⟨jobU, jobF, d, job_taken, ?_, by decide +kernel⟩
    rw [jobF_body, loadTests_eq jobU jobLoadBody jobBody job_ranges job_fits jobU_image, e]

/-! ### Commands that WellFormed refuses, one for each of its checks -/

theorem test_illFormed_page :
    (Instr.softReset .host 0x3FFF000 1).wf = false := by decide +kernel

theorem test_illFormed_irq_page :
    (Instr.pgIrqStatClear .host 0x3FFF000 1 0).wf = false := by decide +kernel

theorem test_illFormed_irq_en_page :
    (Instr.pgIrqEnWrite .host 4 1).wf = false := by decide +kernel

theorem test_illFormed_irq_force_page :
    (Instr.pgIrqForceWrite .host 4 1).wf = false := by decide +kernel

theorem test_illFormed_lock_page :
    (Instr.pgLockWrite .host 4 1).wf = false := by decide +kernel

theorem test_illFormed_cause :
    (Instr.pgErrCntClear .host pwPage 0 9 0).wf = false := by decide +kernel

theorem test_illFormed_cause_off :
    (Instr.pgErrCntClear .host pwPage 0 1 2).wf = false := by decide +kernel

theorem test_illFormed_cause_page :
    (Instr.pgErrCntClear .host 4 0 1 0).wf = false := by decide +kernel

theorem test_illFormed_write_address :
    (Instr.registerWrite .host .bar0 0x4000000 4 0).wf = false := by decide +kernel

theorem test_illFormed_write_size :
    (Instr.registerWrite .host .bar0 0 3 0).wf = false := by decide +kernel

theorem test_illFormed_read_address :
    (Instr.registerRead .host .bar0 0x4000000 4).wf = false := by decide +kernel

theorem test_illFormed_read_size :
    (Instr.registerRead .host .bar0 0 16).wf = false := by decide +kernel

theorem test_illFormed_unanswered_address :
    (Instr.unansweredAccess .host .bar0 0x4000000 true).wf = false := by decide +kernel

theorem test_illFormed_long_packet :
    (Instr.longPacket 0 0 0x2A [1] false false (some 2)).wf = false := by decide +kernel

theorem test_illFormed_table_unit :
    (Instr.tableLoadComplete (some 16384)).wf = false := by decide +kernel

theorem test_illFormed_flips :
    (Instr.t0TileComplete 0 [(1, 2), (1, 2)]).wf = false := by decide +kernel

theorem test_illFormed_credit_receiver :
    (Instr.gondolaTileCredit 0 15).wf = false := by decide +kernel

theorem test_illFormed_detach_receiver :
    (Instr.gondolaDetach 0 0).wf = false := by decide +kernel

theorem test_illFormed_dma_bytes :
    (Instr.dmaSlotBad 0 .gddrRead (2 ^ 24)).wf = false := by decide +kernel

theorem test_illFormed_window_size :
    (Instr.windowWrite 0 false 0 [1]).wf = false := by decide +kernel

theorem test_illFormed_request_agent :
    (Instr.gddr6Request 183 false 0 [] 4 0 0).wf = false := by decide +kernel

theorem test_illFormed_request_address :
    (Instr.gddr6Request 0 false (2 ^ 34) [] 4 0 0).wf = false := by decide +kernel

theorem test_illFormed_request_empty :
    (Instr.gddr6Request 0 false 0 [] 0 0 0).wf = false := by decide +kernel

theorem test_illFormed_request_write_empty :
    (Instr.gddr6Request 0 true 0 [] 0 0 0).wf = false := by decide +kernel

theorem test_illFormed_bar2_address :
    (Instr.bar2Access false (2 ^ 34) [] 4 false).wf = false := by decide +kernel

theorem test_illFormed_bar2_empty :
    (Instr.bar2Access true 0 [] 0 false).wf = false := by decide +kernel

theorem test_illFormed_patrol_place :
    (Instr.sramPatrolRead (.stripe (2 ^ 26)) 0).wf = false := by decide +kernel

theorem test_illFormed_sram_place :
    (Instr.sramUncorrectable (.shared 183)).wf = false := by decide +kernel

theorem test_illFormed_parity_page :
    (Instr.ctrlParity 0 4 false).wf = false := by decide +kernel

theorem test_illFormed_parity_domain :
    (Instr.ctrlParity 0 (cr 127) false).wf = false := by decide +kernel

theorem test_illFormed_format_blocks :
    (Instr.storeFormat [3, 3]).wf = false := by decide +kernel

theorem test_illFormed_ring_page :
    (Instr.ringIndexWrite .host 4 0 0).wf = false := by decide +kernel

theorem test_illFormed_ring_offset :
    (Instr.ringIndexWrite .host pxFaultPage 0x40 0).wf = false := by decide +kernel

theorem test_illFormed_link_gen :
    (Instr.linkUp 0 8).wf = false := by decide +kernel

theorem test_illFormed_link_width :
    (Instr.linkUp 1 3).wf = false := by decide +kernel

theorem test_illFormed_flit :
    (Instr.flitReceive 0 [1] true).wf = false := by decide +kernel

theorem test_illFormed_wax_codes :
    (Instr.waxRunComplete 0 [1]).wf = false := by decide +kernel

theorem test_illFormed_wax_unit :
    (Instr.waxSetApply 49).wf = false := by decide +kernel

theorem test_illFormed_load_page :
    (Instr.counterLoad .host pcPage 0 0).wf = false := by decide +kernel

theorem test_illFormed_wrap_page :
    (Instr.counterWrap 4 0).wf = false := by decide +kernel

theorem test_wellFormed_bounds :
    (Instr.gddr6Request 182 true (2 ^ 34 - 1) [1] 0 0 0).wf = true ∧ (Instr.waxSetApply 48).wf = true ∧ (Instr.flitReceive 2 (zeros 256) true).wf = true := by decide +kernel

/-! ### Results of commands, worked out by hand from the rules -/

/-- A reset of the minimum length burns the leaf subtree in use: the next one starts at leaf 1,024 times its number (R2, R435) (R625). -/
theorem test_deviceReset :
    (after (.deviceReset 10000) leafed).sec.leafNext = 3072 ∧ (after (.deviceReset 10000) leafed).stage = 0 := by decide +kernel

/-- Ones clear (R42). -/
theorem test_pgIrqStatClear :
    (after (.pgIrqStatClear .host (dmCh 15) 0x80000001 0) irq).word (dmCh 15 + 0x14) = 0x40000000 := by decide +kernel

/-- Ones set (R43). -/
theorem test_pgIrqForceWrite :
    (after (.pgIrqForceWrite .host pwPage 0x80000001) up).word (pwPage + 0x14) = 0x80000001 := by decide +kernel

/-- Clear, then the increment (R38). -/
theorem test_pgErrCntClear :
    (after (.pgErrCntClear .host pwPage 0 8 0x44) errs).getF pwPage PG_ERR_CNT_count = 1 := by decide +kernel

/-- The host owns the lock it sets (R40). -/
theorem test_pgLockWrite :
    (after (.pgLockWrite .host pwPage 1) up).getF pwPage PG_LOCK_owner = 1 := by decide +kernel

/-- Four bytes of the value reach the register (R11). -/
theorem test_registerWrite_cut :
    (after (.registerWrite .host .bar0 (dmCh 15 + 0x2C) 4 0xFFFFFFFFFFFFFFFE) irq).word (dmCh 15 + 0x2C) = 0xFFFFFFFE := by decide +kernel

/-- The recorded offset is the dword (R31). -/
theorem test_unansweredAccess :
    (after (.unansweredAccess .host .bar0 0x3FFFFFF false) up).word (dvPage + 0x44) = 0x3FFFFFC := by decide +kernel

/-- The pending vector is sent (R46). -/
theorem test_msixUnmask :
    (after (.msixUnmask 127) pend).link.pba = 0 := by decide +kernel

/-- Two buffers where the count field is 1 (R62). -/
theorem test_streamEnable :
    (after (.streamEnable .host 31 1) strm0).getF (feStrm 31) FE_STRM_STAT_free_bufs = 2 := by decide +kernel

/-- Buffers beyond stripe memory (R62). -/
theorem test_streamEnable_refused :
    (after (.streamEnable .host 31 1) strmBad).getF (feStrm 31) FE_STRM_STAT_cfg_err = 2 := by decide +kernel

/-- One more line (R63). -/
theorem test_longPacket :
    ((after (.longPacket 7 15 0x2A line16 false false none) strmRow14).strm 31).count = 15 := by decide +kernel

/-- A header beyond correction drops the packet (R63). -/
theorem test_longPacket_header :
    (after (.longPacket 7 15 0x2A line16 true false none) strmRow14).getF (fePort 7) FE_PORT_ERR_hdr_cnt = 1 := by decide +kernel

/-- The same for a short packet (R58). -/
theorem test_lineEnd_header :
    (after (.lineEnd 7 true) strmOn).getF (fePort 7) FE_PORT_ERR_hdr_cnt = 1 := by decide +kernel

/-- A frame end without a start (R72). -/
theorem test_frameEnd_length :
    ((after (.frameEnd 7 15 false) strmFrame2).strm 31).framePkt = 2 := by decide +kernel

/-- The deadline closes the stripe (R69). -/
theorem test_closeDeadline :
    ((after (.closeDeadline 31) strmLate).strm 31).closedSet = [0] := by decide +kernel

/-- The buffer returns (R316). -/
theorem test_stripeRelease :
    ((after (.stripeRelease 3 31 0xFFFFFFFF) freed).strm 31).free = [0, 1] := by decide +kernel

/-- The fields of FE_TLD_CTRL (R104). -/
theorem test_tableLoad :
    (after (.tableLoad .host 0x7FFE) tld).fe.tld = some ⟨0, false, 1, 0x3FFE⟩ := by decide +kernel

/-- The sequencer starts at start_pc (R176). -/
theorem test_seqRun :
    (after (.seqRun .host 127 0xFF00) seqIdle).getF (cr 127) CR_SEQ_STAT_pc = 255 := by decide +kernel

/-- A wait takes one; the pc wraps at 256 (R177). -/
theorem test_sem_wrap :
    (after (.sem 127) waits).getF (cr 127) CR_SEQ_STAT_pc = 0 ∧ (after (.sem 127) waits).semCount 15 63 = 0 := by decide +kernel

/-- A post adds one up to the limit (R176). -/
theorem test_nop_post :
    (after (.nop 127) posts).semCount 15 63 = 255 := by decide +kernel

/-- Loop counter 1 takes the 16-bit count (R176). -/
theorem test_loop :
    ((after (.loop 127) loops).core 127).loop1 = 65535 := by decide +kernel

/-- One CELL_END (R176). -/
theorem test_cellEnd :
    ((after (.cellEnd 127) ends).core 127).ends = 1 := by decide +kernel

/-- The extents of a MATMUL of 32 by 32 channels (R179). -/
theorem test_op :
    ((after (.op 127) matS).core 127).cur.map (·.ext) = some [32, 1, 1, 32, 1, 1] := by decide +kernel

/-- One T0 tile issued (R225). -/
theorem test_t0TileIssue :
    (after (.t0TileIssue 127) matT).getF (cr 127) CR_WALK_CNT_t0_issued = 1 := by decide +kernel

/-- The next group loads (R264). -/
theorem test_rinkDrainDone_group :
    (after (.rinkDrainDone 15) drainGroup).groupNo 15 = 1 := by decide +kernel

/-- It waits at free_sem and posts full_sem (R266). -/
theorem test_inputCopy :
    (after (.inputCopy 15) running15).semCount 15 63 = 0 ∧ (after (.inputCopy 15) running15).semCount 15 0 = 2 := by decide +kernel

/-- One for each missing side (R274). -/
theorem test_haloTimeout :
    (after (.haloTimeout 15) haloOver).getF (rk 15) RK_HALO_STAT_timeouts = 2 := by decide +kernel

/-- A forced plan waits for its boundary (R303). -/
theorem test_forcePlan :
    (after (.forcePlan .host 3 0x200) slForce).flag (feSlm 3) FE_SLM_STAT_switching = true := by decide +kernel

/-- Channel 15 starts at slot 7 (R339). -/
theorem test_dmaGo :
    (after (.dmaGo .host 15 7) dmaS).getF (dmCh 15) DM_CH_STAT_slot = 7 := by decide +kernel

/-- The 64 bytes move, and no other (R342). -/
theorem test_dmaSlotDone :
    (after (.dmaSlotDone 15) dmaRuns).host = [(0x1FFF, 1), (0x2000, 7), (0x203F, 9), (0x2040, 2)] := by decide +kernel

/-- OPEN (R348). -/
theorem test_windowOpen :
    (after (.windowOpen .host 255 0) (winS 0)).getF (winPage 255) WN_CTRL_state 63 = 1 := by decide +kernel

/-- The write waits in the window (R350). -/
theorem test_windowWrite :
    (after (.windowWrite 0 false 0x3FC0000000000000 block64) (winS 1)).move.winq = [⟨255, 0, block64⟩] := by decide +kernel

/-- 64 bytes arrive (R352). -/
theorem test_windowArrival :
    memRead (after (.windowArrival 255) winQ).spad 63 2 = [0xAB, 0] := by decide +kernel

/-- One corrected bit (R391). -/
theorem test_gddr6Request_corrected :
    (after (.gddr6Request 180 false 0x3FFFC0 [] 512 1 0) mem).getF (mxCh (gddrChannel (0x3FFFC0 / 64))) MX_CH_ECC_ce = 1 := by decide +kernel

/-- The reading is signed (R385). -/
theorem test_gddr6TemperatureRead :
    toSigned 16 ((after (.gddr6TemperatureRead 7 (-32768)) mem).getF (mxCh 7) MX_CH_STAT_temp_c) = -32768 := by decide +kernel

/-- A read beyond the memory answers ones (R501). -/
theorem test_bar2Access_beyond :
    (after (.bar2Access false 0 [] 4 false) bar2end).rbytes = [0xFF, 0xFF, 0xFF, 0xFF] := by decide +kernel

/-- One corrected word (R409). -/
theorem test_sramPatrolRead :
    (after (.sramPatrolRead (.spad 15) 1) live).getF (rk 15) RK_SPAD_ECC_ce = 1 := by decide +kernel

/-- RESETTING, or LOCKED beyond reset_max (R415). -/
theorem test_hotResetCmd :
    (after (.hotResetCmd .host 3 0x10000) fenced).domState 3 = 2 ∧ (after (.hotResetCmd .host 3 0x10000) fencedFull).domState 3 = 3 := by decide +kernel

/-- LIVE again (R416). -/
theorem test_hotResetDone :
    (after (.hotResetDone 3) resetting).domState 3 = 0 := by decide +kernel

/-- A new window counts from 0 (R418). -/
theorem test_eventWindowEnd :
    (after (.eventWindowEnd 3) { windowed with time := { windowed.time with elapsed := 2 ^ 80 } }).getF pwPage PW_DOM_CNTd_events 3 = 0 := by decide +kernel

/-- The first owner installs slot 2 without a signature (R444). -/
theorem test_ownerInstall :
    ((after (.ownerInstall 7) installs).owner 2).state = 1 ∧ ((after (.ownerInstall 7) installs).owner 2).ceiling = 63 := by decide +kernel

/-- The unlock ends (R464). -/
theorem test_debugUnlockExpiry :
    (after .debugUnlockExpiry unlocks).flag scPage SC_DBG_unlocked = false := by decide +kernel

/-- Each signature takes a leaf (R457). -/
theorem test_identitySignature :
    (after (.identitySignature true) signs).sec.leafNext = 2 ^ 30 - 1 := by decide +kernel

/-- CLOSED (R449). -/
theorem test_sessionClose :
    (after (.sessionClose .host 7 2) opened).sessState 7 = 0 := by decide +kernel

/-- 10 s after the challenge (R449). -/
theorem test_sessionChallengeTimeout :
    (after (.sessionChallengeTimeout 7) chalOld).sessState 7 = 0 := by decide +kernel

/-- Indexes wrap at 65,536 (R506). -/
theorem test_ringIndexWrite_wraps :
    (after (.ringIndexWrite .host pxFaultPage 0x4C 65535) ringOn).getF pxFaultPage PX_FLT_IDX_rd = 65535 := by decide +kernel

/-- A link that is down has no width (R518). -/
theorem test_linkDown :
    (after .linkDown linked).getF pxCommonPage PX_LINK_width = 0 := by decide +kernel

/-- The trained width (R518). -/
theorem test_linkUp :
    (after (.linkUp 1 8) unlinked).getF pxCommonPage PX_LINK_width = 8 := by decide +kernel

/-- AER counts it (R499). -/
theorem test_poisonedWrite :
    (after .poisonedWrite up).link.aerPoisoned = 1 := by decide +kernel

/-- The ring stops (R511). -/
theorem test_frameReadFail :
    (after (.frameReadFail 7) nonced).flag (pxCmd 7) PX_CR_CFG_en = false := by decide +kernel

/-- TRAINING (R528). -/
theorem test_tzPortEnable :
    (after (.tzPortEnable .host 2 1) tzDown0).tzState 2 = 1 := by decide +kernel

/-- UP to node 3 (R528). -/
theorem test_tzTrainingDone :
    (after (.tzTrainingDone 2 ⟨3, 15⟩) tzTrainS).getF (tzPort 2) TZ_PORT_STAT_peer = 3 := by decide +kernel

/-- FAILED after 10 ms (R528). -/
theorem test_tzTrainingTimeout :
    (after (.tzTrainingTimeout 2) tzLate).tzState 2 = 4 := by decide +kernel

/-- Sequence numbers wrap at 4,096 (R524). -/
theorem test_flitReceive_wraps :
    ((after (.flitReceive 2 (flit7 4095) true) tzSeq).tz 2).rxSeq = 0 := by decide +kernel

/-- The eighth replay (R524). -/
theorem test_flitReplay :
    ((after (.flitReplay 2 true) tzNak).tz 2).unacked = [⟨4095, [1], 8⟩] := by decide +kernel

/-- The last answer ends the slot (R527). -/
theorem test_writeRsp :
    (after (.writeRsp 2) tzR).dmaRun 15 = ⟨7, true, 64⟩ := by decide +kernel

/-- A load sets all the bits (R538). -/
theorem test_timebaseSet :
    (after (.timebaseSet .host 0xFFFFFFFF) up).time.now = 0xFFFFFFFF * 2 ^ 64 := by decide +kernel

/-- An edge 999 ms less 1 ns after the last is rejected (R539). -/
theorem test_ppsEdge_early :
    (after (.ppsEdge false false) edged).getF tbPage TB_STAT_rejected = 1 := by decide +kernel

/-- A step of the quadrature either way from −1 (R544). -/
theorem test_encoderEdge :
    (after (.encoderEdge 3 true false) enc).getF tbPage TB_ENCn_POS_pos 3 = 0 ∧ (after (.encoderEdge 3 false true) enc).getF tbPage TB_ENCn_POS_pos 3 = 0xFFFFFFFE := by decide +kernel

/-- Both levels change: an error (R544). -/
theorem test_encoderEdge_both :
    (after (.encoderEdge 3 true true) enc).getF tbPage TB_ENCn_ERR_count 3 = 1 := by decide +kernel

/-- 1,001 ns late with late_us = 1 is dropped (R547). -/
theorem test_markerArm_late :
    (after (.markerArm .host 15 0x80000000) mkTooLate).getF tbPage TB_MKm_STAT_dropped 15 = 1 := by decide +kernel

/-- The pulse goes on 7 µs from now (R548). -/
theorem test_markerDue_merges :
    ((after (.markerDue 15) mkOn).marker 15).activeEnd = some (13000 * 2 ^ 32) := by decide +kernel

/-- Pin 15 is bit 15 (R553). -/
theorem test_gpioEdge :
    (after (.gpioEdge 15 true) up).getF tbPage TB_GPIO_IN_in = 2 ^ 15 := by decide +kernel

/-- A PLL that is not a domain's halts the device (R557). -/
theorem test_pllUnlock :
    (after (.pllUnlock 11) rdy).getF dvPage DV_HALT_code = 0x0802 := by decide +kernel

/-- One per cent above 40,000 is taken (R558). -/
theorem test_oscTrim :
    (after (.oscTrim 40400) up).power.oscTrim = 40400 := by decide +kernel

/-- The lowest divider (R565). -/
theorem test_clkoutSwitch :
    (after (.clkoutSwitch .host 0x803B0FFF) up).getF ckPage CK_CLKOUT_div_m1 = 0xFFF := by decide +kernel

/-- A request while a change is on (R572). -/
theorem test_powerStateRequest_refused :
    (after (.powerStateRequest .host 5) entering).getF pwPage PW_PS_STAT_refuse = 1 := by decide +kernel

/-- The target state (R572). -/
theorem test_powerStateExitDone :
    (after .powerStateExitDone leaving).psState = 4 := by decide +kernel

/-- GLIDE after 1 µs idle (R567). -/
theorem test_glideEntry :
    (after .glideEntry rested).psState = 1 := by decide +kernel

/-- At the threshold one level up; 0.1 °C below it none (R574). -/
theorem test_thermalCompare :
    (after .thermalCompare (allAt (thr 2 0) 1000)).getF ckPage CK_RINK_level = 3 ∧ (after .thermalCompare (allAt (thr 2 0) 999)).getF ckPage CK_RINK_level = 2 := by decide +kernel

/-- A shared rail halts the device (R576). -/
theorem test_railUndervoltage :
    (after (.railUndervoltage 4) rdy).getF dvPage DV_HALT_code = 0x0804 := by decide +kernel

/-- D3hot (R573). -/
theorem test_functionD3hot :
    (after (.functionD3hot true) up).link.d3hot = true := by decide +kernel

/-- A run makes every reading stale (R587). -/
theorem test_waxRunCmd :
    (after (.waxRunCmd .host 0) wax).flag wxPage WX_MONk_stale 63 = true := by decide +kernel

/-- A conversion makes it fresh (R580). -/
theorem test_monitorConversion :
    (after (.monitorConversion 63 0xFFFF) wax).flag wxPage WX_MONk_stale 63 = false := by decide +kernel

/-- The newest code is in force (R591). -/
theorem test_waxSetApply :
    (after (.waxSetApply 7) waxWait).wax.inForce.getD 7 0 = 3 := by decide +kernel

/-- Counter 7's high half (R602). -/
theorem test_counterSnapshot :
    (after (.counterSnapshot .puppeteer 0) pc).word (cr 127 + 0xF64 + 56) = 0xFFFF := by decide +kernel

/-- 48 bits of the held and the written half (R598). -/
theorem test_counterLoad :
    (after (.counterLoad .puppeteer (cr 127) 7 0x12345) held).count48 (cr 127) 7 = 0x2345FFFFFFFF := by decide +kernel

/-- Past 2^48 − 1 (R604). -/
theorem test_counterWrap :
    (after (.counterWrap (cr 127) 7) full).count48 (cr 127) 7 = 0 := by decide +kernel

/-- 6,400 bytes are 100 units of 64 (R605). -/
theorem test_bwWindowEnd :
    (after (.bwWindowEnd 15) bw).getF pcPage PC_BW_LASTk_units 15 = 100 := by decide +kernel

/-- Frozen (R601). -/
theorem test_counterFreeze :
    (after (.counterFreeze .puppeteer 0) pc).flag pcPage PC_CTRL_frozen = true := by decide +kernel

end Sys2Proof.Tests
end

/-! # Register pages and capabilities (02_register_pages_and_capabilities.md)

The header registers of a page: their rows, the reset value of PG_CTRL, the write that clears bits of PG_IRQ_STAT while the hardware sets
some of them, and PG_ERR_CNT after an access error. -/

namespace Sys2Proof.Proofs.Pages

open Sys2Proof Sys2Proof.Machine Sys2Proof.Machine.State Sys2Proof.Laws

/-! ### The header rows

Every kind of page has the same header, so a header register's row does not depend on the kind. -/

/-- The row of PG_CTRL (R33). -/
def ctrlRow : RegRow :=
  ⟨0xC, 0, 1, [⟨31, 5, .rsv, 0, .any⟩, ⟨4, 4, .rw, 0, .any⟩, ⟨3, 3, .rw, 0, .any⟩, ⟨2, 2, .rw, 1, .any⟩, ⟨1, 1, .w1s, 0, .any⟩,
    ⟨0, 0, .rw, 0, .any⟩]⟩

/-- The row of PG_IRQ_STAT (R33). -/
def irqStatRow : RegRow := ⟨0x14, 0, 1, [⟨31, 31, .w1c, 0, .any⟩, ⟨30, 30, .w1c, 0, .any⟩, ⟨29, 0, .w1c, 0, .any⟩]⟩

theorem regRow_ctrl (k : Kind) : regRow k 0xC = some ctrlRow := rfl

theorem regRow_irqStat (k : Kind) : regRow k 0x14 = some irqStatRow := rfl

/-! ### PG_CTRL at reset -/

/-- The reset word of PG_CTRL: run_en, and enable as the kind of page has it. -/
theorem regReset_ctrl {page : Nat} {k : Kind} {i : Nat} (h : pageInfo page = some (k, i)) :
    regReset (page + 0xC) = BitVec.ofNat 32 (4 + enableReset k) := by
  have off : (page + 0xC) % 0x1000 = 0xC := by have := page_aligned h; omega
  have row : packFields ctrlRow.fields (·.rst) = 4 := by decide
  simp [regReset, off, h, regRow_ctrl, row]

theorem word_reset (key : Nat) : State.reset.word key = (regReset key).toNat := rfl

theorem enableReset_le (k : Kind) : enableReset k ≤ 1 := by cases k <;> decide

/-- After a device reset PG_CTRL.enable reads what its kind of page has at reset. -/
theorem getF_reset_enable {page : Nat} {k : Kind} {i : Nat} (h : pageInfo page = some (k, i)) :
    State.reset.getF page PG_CTRL_enable = enableReset k := by
  have := enableReset_le k
  simp only [State.getF, fldKey, word_reset, Nat.mul_zero, Nat.add_zero, regReset_ctrl h, bits, BitVec.toNat_ofNat]
  omega

/-- Settles O3: the reset word of PG_CTRL is a fixed word with the enable of the page's kind in bit 0, and that is 1 for the listed
kinds alone. -/
theorem resetEnables : Obligations.ResetEnables := by
  unfold Obligations.ResetEnables
  intro page k i hpage
  rw [State.flag, getF_reset_enable hpage]
  cases k <;> decide

/-! ### Hardware sets of PG_IRQ_STAT -/

/-- A page event keeps every bit of PG_IRQ_STAT that is set. -/
theorem bit_raise_of_bit (s : State) {p c b : Nat} (hc : c < 32) (h : bit (s.word (p + 0x14)) b = true) :
    bit ((s.raise p c).word (p + 0x14)) b = true := by
  have hbit : bit ((s.raiseBit p c).word (p + 0x14)) b = true := by
    rw [word_raiseBit_stat _ _ _ hc, bit_eq_testBit, testBit_setBit, ← bit_eq_testBit, h, Bool.or_true]
  unfold State.raise
  dsimp only
  split
  · split
    · exact bit_countEvt _ _ _ _ _ hbit
    · exact hbit
  · exact hbit

/-- The events of the bits of a list that a test picks, raised one after another on a page. -/
def raiseBits (p : Nat) (pick : Nat → Bool) (l : List Nat) (s : State) : State :=
  l.foldl (fun s b => if pick b then s.raise p b else s) s

theorem raiseBits_cons (p : Nat) (pick : Nat → Bool) (c : Nat) (l : List Nat) (s : State) :
    raiseBits p pick (c :: l) s = raiseBits p pick l (if pick c then s.raise p c else s) := rfl

theorem bit_raiseBits_of_bit {p b : Nat} (pick : Nat → Bool) (l : List Nat) (hl : ∀ c ∈ l, c < 32) (s : State)
    (h : bit (s.word (p + 0x14)) b = true) : bit ((raiseBits p pick l s).word (p + 0x14)) b = true := by
  induction l generalizing s with
  | nil => exact h
  | cons c l ih =>
    obtain ⟨hc, htail⟩ := List.forall_mem_cons.mp hl
    rw [raiseBits_cons]
    apply ih htail
    split
    · exact bit_raise_of_bit s hc h
    · exact h

/-- A picked bit of the list is set afterwards: its own event sets it, and the later ones keep it. -/
theorem bit_raiseBits {p b : Nat} {pick : Nat → Bool} (hpick : pick b = true) (l : List Nat) (hl : ∀ c ∈ l, c < 32) (hb : b ∈ l)
    (s : State) : bit ((raiseBits p pick l s).word (p + 0x14)) b = true := by
  induction l generalizing s with
  | nil => simp at hb
  | cons c l ih =>
    obtain ⟨hc, htail⟩ := List.forall_mem_cons.mp hl
    rw [raiseBits_cons]
    rcases List.mem_cons.mp hb with rfl | hb
    · rw [if_pos hpick]
      exact bit_raiseBits_of_bit pick l htail _ (bit_raise s p b hc)
    · exact ih htail hb _

theorem word_raiseBits_ne {p k : Nat} (pick : Nat → Bool) (l : List Nat) (s : State) (h : ¬ Safety.eventWords p k) :
    (raiseBits p pick l s).word k = s.word k := by
  refine foldl_keeps _ (State.word · k) (fun s b => ?_) l s
  split
  · exact word_raise_ne s p b h
  · rfl

/-! ### The write of PG_IRQ_STAT -/

/-- The write of PG_IRQ_STAT itself changes no other register word. -/
theorem word_plainWrite_irqStat_ne (a : Agent) (s : State) {page key : Nat} (v : Nat) {ki : Kind × Nat}
    (hpage : pageInfo page = some ki) (h : key ≠ page + 0x14) : (plainWrite a page 0x14 v s).word key = s.word key := by
  rw [plainWrite_word a s hpage (regRow_irqStat _) rfl rfl, word_setWord_ne s _ h]

theorem irqStatWrite_eq (a : Agent) (page hwSet v : Nat) (s : State) :
    irqStatWrite a page hwSet v s =
      (raiseBits page (fun b => bit hwSet b && bit v b) (List.range 32) (plainWrite a page 0x14 v s)).resend page := rfl

/-- A bit that the write clears and the hardware sets in the same cycle is set (R42). -/
theorem bit_irqStatWrite_of_set (a : Agent) (page : Nat) {hwSet v b : Nat} (s : State) (hb : b < 32) (hv : bit v b = true)
    (hset : bit hwSet b = true) : bit ((irqStatWrite a page hwSet v s).word (page + 0x14)) b = true := by
  rw [irqStatWrite_eq, word_resend]
  exact bit_raiseBits (by simp [hv, hset]) _ (fun _ => List.mem_range.mp) (List.mem_range.mpr hb) _

/-- The write of PG_IRQ_STAT, with what the hardware sets in the same cycle, changes no register word but those of the page's events. -/
theorem word_irqStatWrite_ne (a : Agent) {page key : Nat} (hwSet v : Nat) (s : State) {ki : Kind × Nat}
    (hpage : pageInfo page = some ki) (h : ¬ Safety.eventWords page key) :
    (irqStatWrite a page hwSet v s).word key = s.word key := by
  rw [irqStatWrite_eq, word_resend, word_raiseBits_ne _ _ _ h,
    word_plainWrite_irqStat_ne a s v hpage fun e => h (.inr (.inl e))]

/-- PG_ERR_CNT is no word of a page's events. -/
theorem errCnt_not_eventWords (page : Nat) : ¬ Safety.eventWords page (page + 0x20) := by
  unfold Safety.eventWords; omega

/-- An admitted write of PG_IRQ_STAT has its effect. -/
theorem exec_pgIrqStatClear_admitted {s : State} {a : Agent} {page : Nat} (v hwSet : Word) (hadm : Safety.Admitted s a page 0x14) :
    exec (.pgIrqStatClear a page v hwSet) s = .next (Safety.ended (irqStatWrite a page hwSet.toNat v.toNat s)) := by
  rw [exec_pgIrqStatClear, guardedWrite_admitted s a page _ _ _ hadm]

/-- Settles O10: the write clears first and the page event of the set follows, which no later event of the cycle undoes; neither
reaches PG_ERR_CNT. -/
theorem setWinsOverClear : Obligations.SetWinsOverClear := by
  unfold Obligations.SetWinsOverClear
  intro a page v hwSet b s hadm hb hv hset
  obtain ⟨k, i, hpage⟩ := admitted_page hadm
  refine ⟨_, exec_pgIrqStatClear_admitted v hwSet hadm, ?_, ?_⟩
  · rw [word_ended _ (header_ne_psStat hpage (by decide))]
    exact bit_irqStatWrite_of_set a page s hb hv hset
  · rw [word_ended _ (header_ne_psStat hpage (by decide))]
    exact word_irqStatWrite_ne a _ _ s hpage (errCnt_not_eventWords page)

/-! ### PG_ERR_CNT -/

/-- What an access error leaves in PG_ERR_CNT: the record of its address and its event, which follow, are other words. -/
theorem word_pgErr_errCnt (s : State) (a : Agent) (p o c : Nat) (w : Bool) :
    (s.pgErr a p o c w).word (p + 0x20) = ((s.satF p PG_ERR_CNT_count).setF p PG_ERR_CNT_last_cause c).word (p + 0x20) := by
  unfold State.pgErr
  rw [word_raise_ne _ _ _ (errCnt_not_eventWords p), word_setWord_ne _ _ (by omega)]

/-- An access error adds 1 to PG_ERR_CNT.count, saturating (R33, R37). -/
theorem getF_pgErr_count (s : State) (a : Agent) (p o c : Nat) (w : Bool) :
    (s.pgErr a p o c w).getF p PG_ERR_CNT_count = min (s.getF p PG_ERR_CNT_count + 1) 65535 := by
  have after : (s.pgErr a p o c w).getF p PG_ERR_CNT_count =
      ((s.satF p PG_ERR_CNT_count).setF p PG_ERR_CNT_last_cause c).getF p PG_ERR_CNT_count :=
    congrArg (bits · 15 0) (word_pgErr_errCnt s a p o c w)
  rw [after, getF_setF_ne _ _ _ _ _ _ _ _ (.inr (by decide)), State.satF, getF_setF_same _ _ _ _ _ (by decide) (by decide)]
  simp only [satAdd]
  omega

/-- An access error leaves its cause in PG_ERR_CNT.last_cause (R37). -/
theorem getF_pgErr_cause (s : State) (a : Agent) (p o : Nat) {c : Nat} (w : Bool) (hc : c < 256) :
    (s.pgErr a p o c w).getF p PG_ERR_CNT_last_cause = c := by
  have after : (s.pgErr a p o c w).getF p PG_ERR_CNT_last_cause =
      ((s.satF p PG_ERR_CNT_count).setF p PG_ERR_CNT_last_cause c).getF p PG_ERR_CNT_last_cause :=
    congrArg (bits · 23 16) (word_pgErr_errCnt s a p o c w)
  rw [after, getF_setF_same _ _ _ _ _ (by decide) (by decide)]
  exact Nat.mod_eq_of_lt hc

/-- A write of 1 to PG_ERR_CNT.clear leaves count 0 (R33). -/
theorem getF_errCntWrite_count (page : Nat) {v : Nat} (s : State) (hv : bit v 31 = true) :
    (errCntWrite page v s).getF page PG_ERR_CNT_count = 0 := by
  rw [errCntWrite, if_pos hv, getF_setF_ne _ _ _ _ _ _ _ _ (.inr (by decide)), getF_setF_same _ _ _ _ _ (by decide) (by decide),
    Nat.zero_mod]

/-- An admitted clear of PG_ERR_CNT with an access error of the other agent in the same cycle: the clear, then the error (log 160). -/
theorem exec_pgErrCntClear_error {s : State} {a : Agent} {page : Nat} (v : Word) {cause : BitVec 8} (off : BitVec 12)
    (hadm : Safety.Admitted s a page 0x20) (h1 : 1 ≤ cause.toNat) (h8 : cause.toNat ≤ 8) :
    exec (.pgErrCntClear a page v cause off) s =
      .next (Safety.ended ((errCntWrite page (setBit v.toNat 31) s).pgErr (if a == .host then .puppeteer else .host) page off.toNat
        cause.toNat true)) := by
  rw [exec_pgErrCntClear, guardedWrite_admitted s a page _ _ _ hadm]
  dsimp only
  rw [if_pos ⟨h1, h8⟩]

/-- Settles O11: the clear leaves count 0, and the increment that follows it finds that 0. -/
theorem clearBeforeIncrement : Obligations.ClearBeforeIncrement := by
  unfold Obligations.ClearBeforeIncrement
  intro a page v cause off s hadm h1 h8
  obtain ⟨k, i, hpage⟩ := admitted_page hadm
  have hne : page + 0x20 ≠ Safety.psStat := header_ne_psStat hpage (by decide)
  refine ⟨_, exec_pgErrCntClear_error v off hadm h1 h8, ?_, ?_⟩
  · rw [getF_ended _ page PG_ERR_CNT_count 0 hne, getF_pgErr_count, getF_errCntWrite_count page s (bit_setBit_same _ _)]
    rfl
  · rw [getF_ended _ page PG_ERR_CNT_last_cause 0 hne, getF_pgErr_cause _ _ _ _ _ (by omega)]

end Sys2Proof.Proofs.Pages

/-! # Markers (18_time_and_field_io.md)

What MARKER_DUE makes of a marker that has a request due: the pulse, the queue and the two counting fields (R548, R549). -/

namespace Sys2Proof.Proofs.Markers

open Sys2Proof Sys2Proof.Machine Sys2Proof.Machine.State Sys2Proof.Laws

/-! ### Counting fields -/

/-- A field counted up reads its sum, held at the field's highest value. -/
theorem getF_satF_same (s : State) (p : Nat) (f : Fld) (n i : Nat) (h : f.lo ≤ f.hi) (h32 : f.hi < 32) :
    (s.satF p f n i).getF p f i = min (s.getF p f i + n) (2 ^ (f.hi + 1 - f.lo) - 1) := by
  have hpos : 0 < 2 ^ (f.hi + 1 - f.lo) := Nat.two_pow_pos _
  rw [State.satF, getF_setF_same s p f _ i h h32, satAdd]
  exact Nat.mod_eq_of_lt (by omega)

/-- A wrapping field counted up reads its sum, cut to the field's width. -/
theorem getF_wrapF_same (s : State) (p : Nat) (f : Fld) (n i : Nat) (h : f.lo ≤ f.hi) (h32 : f.hi < 32) :
    (s.wrapF p f n i).getF p f i = (s.getF p f i + n) % 2 ^ (f.hi + 1 - f.lo) :=
  getF_setF_same s p f _ i h h32

/-! ### The registers of a marker -/

/-- TB_MKm_CNT is another register than TB_MKm_STAT. -/
theorem cntKey_ne_statKey (m : Nat) : fldKey tbPage TB_MKm_CNT_pulses m ≠ fldKey tbPage TB_MKm_STAT_merged m := by
  simp only [fldKey]; omega

/-- The marker's words lie on the timebase page, below PW_PS_STAT. -/
theorem statKey_ne_psStat (m : Fin 16) : fldKey tbPage TB_MKm_STAT_merged m ≠ Safety.psStat := by
  simp only [fldKey, Safety.psStat, tbPage, pwPage]; omega

theorem cntKey_ne_psStat (m : Fin 16) : fldKey tbPage TB_MKm_CNT_pulses m ≠ Safety.psStat := by
  simp only [fldKey, Safety.psStat, tbPage, pwPage]; omega

/-! ### A marker's state replaced -/

theorem marker_congr {s t : State} (h : t.time = s.time) (m : Nat) : t.marker m = s.marker m := by
  rw [State.marker, State.marker, h]

theorem marker_setMarker_same (s : State) (m : Nat) (k : MarkerSt) : (s.setMarker m k).marker m = k :=
  tabGet_tabPut_same _ _ _ _

/-- The marker's state shows in the register words as TB_MKm_STAT.pending alone. -/
theorem word_setMarker_ne (s : State) (m : Nat) (k : MarkerSt) {key : Nat} (h : key ≠ fldKey tbPage TB_MKm_STAT_merged m) :
    (s.setMarker m k).word key = s.word key :=
  word_setF_ne _ tbPage TB_MKm_STAT_pending _ m h

theorem getF_setMarker_merged (s : State) (m : Nat) (k : MarkerSt) :
    (s.setMarker m k).getF tbPage TB_MKm_STAT_merged m = s.getF tbPage TB_MKm_STAT_merged m :=
  getF_setF_ne _ _ _ _ _ _ _ _ (.inr (by decide))

/-- The marker's state replaced and `n` requests counted in merged: what every due request does (R549). -/
def mergedInto (s : State) (m : Nat) (k : MarkerSt) (n : Nat) : State :=
  (s.setMarker m k).satF tbPage TB_MKm_STAT_merged n m

theorem getF_mergedInto_merged (s : State) (m : Nat) (k : MarkerSt) (n : Nat) :
    (mergedInto s m k n).getF tbPage TB_MKm_STAT_merged m = min (s.getF tbPage TB_MKm_STAT_merged m + n) 255 := by
  rw [mergedInto, getF_satF_same _ _ _ _ _ (by decide) (by decide), getF_setMarker_merged]
  rfl

theorem word_mergedInto_ne (s : State) (m : Nat) (k : MarkerSt) (n : Nat) {key : Nat}
    (h : key ≠ fldKey tbPage TB_MKm_STAT_merged m) : (mergedInto s m k n).word key = s.word key :=
  (word_setF_ne _ tbPage TB_MKm_STAT_merged _ m h).trans (word_setMarker_ne s m k h)

theorem getF_mergedInto_pulses (s : State) (m : Nat) (k : MarkerSt) (n : Nat) :
    (mergedInto s m k n).getF tbPage TB_MKm_CNT_pulses m = s.getF tbPage TB_MKm_CNT_pulses m := by
  rw [State.getF, word_mergedInto_ne s m k n (cntKey_ne_statKey m), State.getF]

theorem marker_mergedInto (s : State) (m : Nat) (k : MarkerSt) (n : Nat) : (mergedInto s m k n).marker m = k :=
  (marker_congr (satF_time _ _ _ _ _) m).trans (marker_setMarker_same s m k)

/-! ### MARKER_DUE -/

/-- The requests of a marker that are due. -/
def dueRequests (s : State) (m : Nat) : List MarkerReq := (s.marker m).queue.filter fun r => (s.lateness m r).isSome

/-- The marker once its due requests have fired: the others wait on, and the pulse runs its full width from now (R548, R549). -/
def firedMarker (s : State) (m : Nat) : MarkerSt where
  queue := (s.marker m).queue.filter fun r => (s.lateness m r).isNone
  activeEnd := some (s.time.elapsed + s.getF tbPage TB_MKm_CFG_width_us m * 1000 * 2 ^ 32)

section Due

variable {s : State} {m : Nat} (hdue : dueRequests s m ≠ [])
include hdue

theorem due_not_isEmpty : ¬ ((s.marker m).queue.filter fun r => (s.lateness m r).isSome).isEmpty = true :=
  mt List.isEmpty_iff.mp hdue

/-- During a pulse every due request is merged (R549). -/
theorem markerDue_of_active (hact : (s.marker m).activeEnd.isSome = true) :
    s.markerDue m = mergedInto s m (firedMarker s m) (dueRequests s m).length := by
  simp only [State.markerDue, if_neg (due_not_isEmpty hdue), if_pos hact, mergedInto, firedMarker, dueRequests]

/-- On an idle output the due requests start one pulse, and all but one are merged (R549). -/
theorem markerDue_of_idle (hidle : (s.marker m).activeEnd.isSome = false) :
    s.markerDue m =
      (mergedInto s m (firedMarker s m) ((dueRequests s m).length - 1)).wrapF tbPage TB_MKm_CNT_pulses 1 m := by
  simp only [State.markerDue, if_neg (due_not_isEmpty hdue), if_neg (Bool.eq_false_iff.mp hidle), mergedInto, firedMarker, dueRequests]

theorem marker_markerDue : (s.markerDue m).marker m = firedMarker s m := by
  cases hact : (s.marker m).activeEnd.isSome with
  | true => rw [markerDue_of_active hdue hact, marker_mergedInto]
  | false => rw [markerDue_of_idle hdue hact, marker_congr (wrapF_time _ _ _ _ _), marker_mergedInto]

theorem rest_markerDue : Safety.rest { s.markerDue m with time := s.time } = Safety.rest s := by
  cases hact : (s.marker m).activeEnd.isSome with
  | true => rw [markerDue_of_active hdue hact]; rfl
  | false => rw [markerDue_of_idle hdue hact]; rfl

/-- No word but the marker's TB_MKm_STAT and TB_MKm_CNT changes. -/
theorem word_markerDue_ne {key : Nat} (hstat : key ≠ fldKey tbPage TB_MKm_STAT_merged m)
    (hcnt : key ≠ fldKey tbPage TB_MKm_CNT_pulses m) : (s.markerDue m).word key = s.word key := by
  cases hact : (s.marker m).activeEnd.isSome with
  | true => rw [markerDue_of_active hdue hact, word_mergedInto_ne s m _ _ hstat]
  | false => rw [markerDue_of_idle hdue hact, State.wrapF, word_setF_ne _ _ _ _ _ hcnt, word_mergedInto_ne s m _ _ hstat]

theorem getF_markerDue_of_active (hact : (s.marker m).activeEnd.isSome = true) :
    (s.markerDue m).getF tbPage TB_MKm_STAT_merged m =
        min (s.getF tbPage TB_MKm_STAT_merged m + (dueRequests s m).length) 255 ∧
      (s.markerDue m).getF tbPage TB_MKm_CNT_pulses m = s.getF tbPage TB_MKm_CNT_pulses m := by
  rw [markerDue_of_active hdue hact]
  exact ⟨getF_mergedInto_merged s m _ _, getF_mergedInto_pulses s m _ _⟩

theorem getF_markerDue_of_idle (hidle : (s.marker m).activeEnd.isSome = false) :
    (s.markerDue m).getF tbPage TB_MKm_STAT_merged m =
        min (s.getF tbPage TB_MKm_STAT_merged m + ((dueRequests s m).length - 1)) 255 ∧
      (s.markerDue m).getF tbPage TB_MKm_CNT_pulses m = (s.getF tbPage TB_MKm_CNT_pulses m + 1) % 2 ^ 32 := by
  rw [markerDue_of_idle hdue hidle]
  constructor
  · rw [State.wrapF, getF_setF_ne _ _ _ _ _ _ _ _ (.inl (cntKey_ne_statKey m).symm), getF_mergedInto_merged]
  · rw [getF_wrapF_same _ _ _ _ _ (by decide) (by decide), getF_mergedInto_pulses]
    rfl

end Due

/-! ### The end of the command -/

theorem marker_ended (s : State) (m : Nat) : (Safety.ended s).marker m = s.marker m :=
  marker_congr (time_of_rest (rest_ended s)) m

/-- The end of a command keeps the rest of the state, whatever the time is taken to be. -/
theorem rest_ended_withTime (s : State) (c : TimeSt) :
    Safety.rest { Safety.ended s with time := c } = Safety.rest { s with time := c } :=
  congrArg (fun u : State => { u with time := c }) (rest_ended s)

/-- Settles O22: a pulse that runs makes every due request a merged one, an idle output makes one of them the pulse; either way the
pulse's end is set anew from the due cycle. -/
theorem markerPulses : Obligations.MarkerPulses := by
  unfold Obligations.MarkerPulses
  intro m s hrun due (hdue : dueRequests s m ≠ [])
  have hmarker : (Safety.ended (s.markerDue m)).marker m = firedMarker s m := by
    rw [marker_ended, marker_markerDue hdue]
  refine ⟨_, (exec_markerDue m s).trans (eng_run s _ hrun), by rw [hmarker]; rfl, by rw [hmarker]; rfl, ?_, ?_, ?_, ?_⟩
  · intro hact
    rw [getF_ended _ _ _ _ (statKey_ne_psStat m), getF_ended _ _ _ _ (cntKey_ne_psStat m)]
    exact getF_markerDue_of_active hdue hact
  · intro hidle
    rw [getF_ended _ _ _ _ (statKey_ne_psStat m), getF_ended _ _ _ _ (cntKey_ne_psStat m)]
    exact getF_markerDue_of_idle hdue hidle
  · intro key hkey hps
    obtain ⟨hstat, hcnt⟩ := not_or.mp hkey
    rw [word_ended _ hps, word_markerDue_ne hdue hstat hcnt]
  · rw [rest_ended_withTime, rest_markerDue hdue]

end Sys2Proof.Proofs.Markers
